-- ==== Sys2Proof/Word.lean ====
section
/-! DEFINITION. The machine's word types: the widths of 00_scope.md rule R6. -/

namespace Sys2Proof

/-- A 16-bit word: AC, DR, IR, TR and every memory word (R6, R20). -/
abbrev Word := BitVec 16

/-- A 12-bit word address: AR, PC and an instruction's address field (R6, R20). -/
abbrev Addr := BitVec 12

/-- The 8-bit contents of INPR and OUTR (R6, R20). -/
abbrev IoByte := BitVec 8

/-- The 4-bit value of the sequence counter SC (R6, R20). -/
abbrev SeqCount := BitVec 4

end Sys2Proof
end

