-- ==== Sys2Proof/Syntax.lean ====
section
/-! DEFINITION. The 25 instructions (30_encoding.md rule R79), one constructor per row of the opcode table. -/

namespace Sys2Proof

/-- A decoded instruction. A memory-reference instruction carries the indirect bit I and its 12-bit address
field (R71, R72, R74); a register-reference or input/output instruction has no operand (R75). -/
inductive Instr where
  | and (indirect : Bool) (addr : Addr)
  | add (indirect : Bool) (addr : Addr)
  | lda (indirect : Bool) (addr : Addr)
  | sta (indirect : Bool) (addr : Addr)
  | bun (indirect : Bool) (addr : Addr)
  | bsa (indirect : Bool) (addr : Addr)
  | isz (indirect : Bool) (addr : Addr)
  | cla
  | cle
  | cma
  | cme
  | cir
  | cil
  | inc
  | spa
  | sna
  | sza
  | sze
  | hlt
  | inp
  | out
  | ski
  | sko
  | ion
  | iof
  deriving DecidableEq, Repr

/-- The memory-reference instructions are those with opcode 0 to 6 (R72). -/
def Instr.isMemoryReference : Instr → Bool
  | .and _ _ | .add _ _ | .lda _ _ | .sta _ _ | .bun _ _ | .bsa _ _ | .isz _ _ => true
  | .cla | .cle | .cma | .cme | .cir | .cil | .inc | .spa | .sna | .sza | .sze | .hlt
  | .inp | .out | .ski | .sko | .ion | .iof => false

end Sys2Proof
end

