-- ==== Sys2Proof/Decode.lean ====
section
/-! DEFINITION. The decode function of 30_encoding.md rule R79, total on every 16-bit word, and the encoder
written from the tables of rules R73, R76 and R77. -/

namespace Sys2Proof

/-- Bit 15 of an instruction word, I (R71). -/
def indirectBit (w : Word) : Bool := w.getLsbD 15

/-- Bits 14 to 12 of an instruction word, the opcode D (R71, R36). -/
def opcodeField (w : Word) : BitVec 3 := w.extractLsb' 12 3

/-- Bits 11 to 0 of an instruction word, the address or the selector (R71). -/
def addressField (w : Word) : Addr := w.extractLsb' 0 12

/-- Why a word is no instruction: the two classes of illegal words of rule R78. -/
inductive IllegalWord where
  /-- Opcode 7, I = 0, and the selector does not name a register-reference instruction. -/
  | registerReferenceSelector
  /-- Opcode 7, I = 1, and the selector does not name an input/output instruction. -/
  | inputOutputSelector
  deriving DecidableEq, Repr

/-- `mri_name` of rule R79 by the opcode table of rule R73; opcode 7 is no memory-reference instruction. -/
def memoryReference? (opcode : BitVec 3) (indirect : Bool) (addr : Addr) : Option Instr :=
  match opcode.toNat with
  | 0 => some (.and indirect addr)
  | 1 => some (.add indirect addr)
  | 2 => some (.lda indirect addr)
  | 3 => some (.sta indirect addr)
  | 4 => some (.bun indirect addr)
  | 5 => some (.bsa indirect addr)
  | 6 => some (.isz indirect addr)
  | _ => none

/-- The register-reference selectors of rule R76: bit 11 is CLA, down to bit 0, HLT. The bit of each is the
spec's decision D1 (PRESUMED there from general knowledge; log entry 10). -/
def registerReferenceTable : List (Addr × Instr) :=
  [(0x800, .cla), (0x400, .cle), (0x200, .cma), (0x100, .cme), (0x080, .cir), (0x040, .cil),
   (0x020, .inc), (0x010, .spa), (0x008, .sna), (0x004, .sza), (0x002, .sze), (0x001, .hlt)]

/-- The input/output selectors of rule R77: bit 11 is INP, down to bit 6, IOF; bits 5 to 0 select nothing
(D1, D10; log entries 10 and 16). -/
def inputOutputTable : List (Addr × Instr) :=
  [(0x800, .inp), (0x400, .out), (0x200, .ski), (0x100, .sko), (0x080, .ion), (0x040, .iof)]

/-- `decode` of rule R79. -/
def decode (w : Word) : Except IllegalWord Instr :=
  match memoryReference? (opcodeField w) (indirectBit w) (addressField w) with
  | some i => .ok i
  | none =>
    if indirectBit w then
      match inputOutputTable.lookup (addressField w) with
      | some i => .ok i
      | none => .error .inputOutputSelector
    else
      match registerReferenceTable.lookup (addressField w) with
      | some i => .ok i
      | none => .error .registerReferenceSelector

/-- The word `Iooo aaaa aaaa aaaa` of rule R71. -/
def instructionWord (indirect : Bool) (opcode : BitVec 3) (field : Addr) : Word :=
  BitVec.cons indirect (opcode ++ field)

/-- The word of an instruction, from the tables of rules R73, R76 and R77. -/
def encode : Instr → Word
  | .and ind a => instructionWord ind 0b000 a
  | .add ind a => instructionWord ind 0b001 a
  | .lda ind a => instructionWord ind 0b010 a
  | .sta ind a => instructionWord ind 0b011 a
  | .bun ind a => instructionWord ind 0b100 a
  | .bsa ind a => instructionWord ind 0b101 a
  | .isz ind a => instructionWord ind 0b110 a
  | .cla => 0x7800
  | .cle => 0x7400
  | .cma => 0x7200
  | .cme => 0x7100
  | .cir => 0x7080
  | .cil => 0x7040
  | .inc => 0x7020
  | .spa => 0x7010
  | .sna => 0x7008
  | .sza => 0x7004
  | .sze => 0x7002
  | .hlt => 0x7001
  | .inp => 0xF800
  | .out => 0xF400
  | .ski => 0xF200
  | .sko => 0xF100
  | .ion => 0xF080
  | .iof => 0xF040

/-- The instruction the decoder reads from a row of spec/opcode_table.json: an instruction is one word (R70),
so only its low 16 bits exist, and the bits above `nbits` are 0. -/
def decodeTableWord (nbits w : Nat) : Option Instr :=
  match decode (BitVec.ofNat 16 (w % 2 ^ nbits)) with
  | .ok i => some i
  | .error _ => none

end Sys2Proof
end

