-- ==== Sys2Proof/Config.lean ====
section
/-! DEFINITION. The fixed parameters of 00_scope.md rule R6. The hardware has no options and leaves no value
open, so there is no free value here; `RUN_LIMIT` (R7) is an argument of `run`. -/

namespace Sys2Proof.Config

/-- MEM_WORDS: addresses 0x000 to 0xFFF (R6). -/
def memWords : Nat := 4096

/-- Where the interrupt cycle saves the return address (R6: "Memory[0] ← PC"). -/
def savedPcAddress : Addr := 0x000

/-- Where the interrupt cycle sends control (R6: "PC ← 1"). -/
def interruptEntry : Addr := 0x001

/-- The most timing states one `step_instruction` performs (60_exceptions.md rule R234). -/
def maxStepStates : Nat := 10

end Sys2Proof.Config
end

