-- ==== Sys2Proof/Machine/State.lean ====
section
/-! DEFINITION. The state of one engine (10_state.md), the errors of 60_exceptions.md rule R201, the events of rule
R230, and the state at construction (70_reset_and_hazards.md rule R250). Plain data throughout. -/

namespace Sys2Proof.Machine

/-- The memory bank M: 4096 words of 16 bits (R39, R50), as the list of the words that are not 0, by rising
address. A word not listed is 0 (R250, R252). The unit is the whole word: memory has no bytes (R50, R56;
log entries 1 and 2). -/
abbrev Memory := List (Nat × Word)

/-- The four counters of the host-side profiler (R43, R231). They count without bound (log entry 9). -/
structure Profiler where
  cycles : Nat
  instructions : Nat
  reads : Nat
  writes : Nat
  deriving DecidableEq, Repr

/-- What the block emits while it performs timing states (R230, R55). -/
inductive Event where
  /-- One for every timing state performed. -/
  | cycle
  /-- One for every completed instruction. -/
  | instructionCompleted
  /-- One for every engine read. -/
  | memRead (address : Addr)
  /-- One for every engine write. -/
  | memWrite (address : Addr)
  deriving DecidableEq, Repr

/-- The reason a `LoadError` records: which check of R253 failed (the names are the model's, log entry 17). -/
inductive LoadReason where
  | originOutOfRange
  | programTooLong
  | dataAddressOutOfRange
  | wordTooLarge
  deriving DecidableEq, Repr

/-- The four error kinds of R201 with the values they record. -/
inductive EngineError where
  /-- The T3 state of an illegal word (R202): the word and its address. -/
  | decodeError (word : Word) (address : Addr)
  /-- The memory bank's contract and `read_memory` (R53, R54, R67): the address and count asked for. -/
  | addressOutOfRange (address count : Nat)
  /-- `read_register` with a name outside R45. -/
  | unknownRegister (name : String)
  /-- `load` of an image that does not fit (R253). -/
  | loadError (reason : LoadReason)
  deriving DecidableEq, Repr

/-- The 16 registers and flags of R20, the names `read_register` knows (R45). -/
inductive RegName where
  | AC | DR | AR | PC | IR | TR | OUTR | INPR | SC | E | S | IEN | R | FGI | FGO | I
  deriving DecidableEq, Repr

/-- The state of one engine: the register file of R20 under the spec's own names, the memory bank (R39), the
error status (R42) and the profiler's counters (R43, R44). -/
structure State where
  /-- Accumulator (R21). -/
  AC : Word
  /-- Data register (R23). -/
  DR : Word
  /-- Address register (R24). -/
  AR : Addr
  /-- Program counter (R25). -/
  PC : Addr
  /-- Instruction register (R26). -/
  IR : Word
  /-- Temporary register, used by the interrupt cycle alone (R27). -/
  TR : Word
  /-- Output register (R29). -/
  OUTR : IoByte
  /-- Input register (R28). -/
  INPR : IoByte
  /-- Sequence counter: the timing state performed next (R30). -/
  SC : SeqCount
  /-- Extend (carry) flag (R32). -/
  E : Bool
  /-- Run/stop flag (R33). -/
  S : Bool
  /-- Interrupt enable (R34). -/
  IEN : Bool
  /-- Interrupt cycle (R35). -/
  R : Bool
  /-- Input ready (R37). -/
  FGI : Bool
  /-- Output ready (R38). -/
  FGO : Bool
  /-- Indirect-address bit, latched by T2 (R36). -/
  I : Bool
  /-- The memory bank (R39). -/
  M : Memory
  /-- The error that halted the engine, if one did (R42). -/
  ERR : Option EngineError
  /-- The profiler's counters (R43, R231). -/
  profiler : Profiler
  deriving DecidableEq, Repr

/-- Why the model stops without a next state. -/
inductive Fault where
  /-- Raised by `stepCycle` and `step` when SC, with R, I and IR, names no timing state: SC 7 to 15, a phase
  past an instruction's last, or an interrupt-cycle state past RT2. The spec says such a state is never reached
  and that a model that reaches one "must fault, not pick a behaviour" (R31, D28). Safe: no run of the hardware
  meets it (log entry 7). -/
  | noTimingState (sc : SeqCount)
  deriving DecidableEq, Repr

/-- Why the model has no meaning for an instruction. -/
inductive Refusal where
  /-- Raised by `exec` alone, for an instruction whose meaning is not written; no arm of `exec` uses it. Safe. -/
  | notModelled (mnemonic : String)
  deriving DecidableEq, Repr

/-- The state at construction: every register, flag, memory word and counter 0, ERR none (R250; R44, "at
construction"). S = 0, so the engine is halted until the first `load` (log entries 3 and 4). -/
def State.reset : State where
  AC := 0
  DR := 0
  AR := 0
  PC := 0
  IR := 0
  TR := 0
  OUTR := 0
  INPR := 0
  SC := 0
  E := false
  S := false
  IEN := false
  R := false
  FGI := false
  FGO := false
  I := false
  M := []
  ERR := none
  profiler := ⟨0, 0, 0, 0⟩

end Sys2Proof.Machine
end

