-- ==== Sys2Proof/Machine/Flags.lean ====
section
/-! DEFINITION. The arithmetic, the flag computations and the conditions the instructions test: the carry into E,
the 17-bit ring of E and AC, the skip conditions and the interrupt request. -/

namespace Sys2Proof.Machine

/-- The exact 17-bit sum of ADD (R133). -/
def exactSum (a b : Word) : BitVec 17 := a.setWidth 17 + b.setWidth 17

/-- `sum[15:0]`: what ADD writes to AC (R133). -/
def sumWord (a b : Word) : Word := (exactSum a b).setWidth 16

/-- `sum[16]`: the carry out of bit 15, what ADD writes to E (R133, R32). -/
def sumCarry (a b : Word) : Bool := (exactSum a b).getLsbD 16

/-- `{E, AC[15:1]}`: what CIR writes to AC (R154). -/
def circulateRight (e : Bool) (ac : Word) : Word := BitVec.cons e (ac.extractLsb' 1 15)

/-- `AC[0]`: what CIR writes to E (R154). -/
def circulateRightE (ac : Word) : Bool := ac.getLsbD 0

/-- `{AC[14:0], E}`: what CIL writes to AC (R155). -/
def circulateLeft (e : Bool) (ac : Word) : Word := BitVec.concat (ac.extractLsb' 0 15) e

/-- `AC[15]`: what CIL writes to E (R155). -/
def circulateLeftE (ac : Word) : Bool := ac.getLsbD 15

/-- The sign bit of AC, `AC[15]` (R22): SPA skips when it is 0, SNA when it is 1. -/
def signBit (ac : Word) : Bool := ac.getLsbD 15

/-- `AC == 0`, the whole word (R22): SZA skips when it holds. -/
def isZero (w : Word) : Bool := w == 0#16

/-- The interrupt request condition (R211): `IEN == 1 and (FGI == 1 or FGO == 1) and R == 0`. -/
def interruptRequest (s : State) : Bool := s.IEN && (s.FGI || s.FGO) && !s.R

end Sys2Proof.Machine
end

