-- ==== Sys2Proof/Machine/Ops.lean ====
section
/-! DEFINITION. The named operations every timing state is built from: the memory bank (20_memory.md), the events,
the end of a timing state and of an instruction (40_instruction_cycle.md), fetch and decode, the interrupt cycle
and the DecodeError state (60_exceptions.md). Each operation on `State` is the whole effect of its
micro-operations, which read the state as it was when the timing state began (R12). -/

namespace Sys2Proof.Machine

/-! ### The memory bank -/

/-- `M[a]`: the word at address `a`; a word not listed is 0 (R250, R252). -/
def Memory.read : Memory → Nat → Word
  | [], _ => 0#16
  | (k, w) :: rest, a => if k = a then w else Memory.read rest a

/-- `M[a] <- v`, keeping the list sorted and free of zero words. -/
def Memory.set : Memory → Nat → Word → Memory
  | [], a, v => if v = 0#16 then [] else [(a, v)]
  | (k, w) :: rest, a, v =>
    if a < k then (if v = 0#16 then (k, w) :: rest else (a, v) :: (k, w) :: rest)
    else if a = k then (if v = 0#16 then rest else (a, v) :: rest)
    else (k, w) :: Memory.set rest a v

/-- The canonical form: addresses rise strictly, each is below 4096 (R39), and no listed word is 0. -/
def Memory.wf : Memory → Bool
  | [] => true
  | (k, w) :: rest =>
    decide (k < Config.memWords) && (w != 0#16) && rest.all (fun c => decide (k < c.1)) && Memory.wf rest

/-- The bank's `read(address)`, which fails above 0xFFF (R53). -/
def Memory.bankRead (m : Memory) (address : Nat) : Except EngineError Word :=
  if address < Config.memWords then .ok (m.read address) else .error (.addressOutOfRange address 1)

/-- The bank's `write(address, value)`, under the same check (R54). -/
def Memory.bankWrite (m : Memory) (address : Nat) (value : Word) : Except EngineError Memory :=
  if address < Config.memWords then .ok (m.set address value) else .error (.addressOutOfRange address 1)

/-! ### Events -/

/-- One event's effect on the counters (R231). -/
def Profiler.count (p : Profiler) : Event → Profiler
  | .cycle => { p with cycles := p.cycles + 1 }
  | .instructionCompleted => { p with instructions := p.instructions + 1 }
  | .memRead _ => { p with reads := p.reads + 1 }
  | .memWrite _ => { p with writes := p.writes + 1 }

/-- `emit E` (R14, R230): the profiler counts the event; no engine state changes (R55). -/
def State.emit (e : Event) (s : State) : State := { s with profiler := s.profiler.count e }

/-- The word `MemRead(a, 1)` returns (R13). The address is 12 bits, so the bank's range check always passes
(R52, R203; log entry 24). -/
def State.word (s : State) (a : Addr) : Word := s.M.read a.toNat

/-- `MemWrite(a, 1, v)` with its event (R13, R55). -/
def State.memWrite (a : Addr) (v : Word) (s : State) : State :=
  State.emit (.memWrite a) { s with M := s.M.set a.toNat v }

/-! ### The end of a timing state -/

/-- The end of a timing state that leaves SC at `sc`, with its CycleEvent (R100, R30). -/
def State.endState (sc : SeqCount) (s : State) : State := State.emit .cycle { s with SC := sc }

/-- `end_instruction` (R112) with the CycleEvent of the instruction's last state. `before` is the state when that
timing state began: the request condition reads it (R211, D5; log entry 11). `after` holds the state's other
writes. -/
def State.endInstruction (before after : State) : State :=
  State.emit .instructionCompleted
    (State.endState 0 { after with R := if interruptRequest before then true else after.R })

/-! ### Fetch and decode -/

/-- T0 (R102): `AR <- PC; SC <- 1`. -/
def t0 (s : State) : State := State.endState 1 { s with AR := s.PC }

/-- T1 (R103): `IR <- MemRead(AR, 1); PC <- PC + 1; SC <- 2`. -/
def t1 (s : State) : State :=
  State.endState 2 (State.emit (.memRead s.AR) { s with IR := s.word s.AR, PC := s.PC + 1 })

/-- The transfers of T2 for given fields of the instruction word: `I <- bit 15; AR <- bits 11:0; SC <- 3` (R104). -/
def latchFields (indirect : Bool) (field : Addr) (s : State) : State :=
  State.endState 3 { s with I := indirect, AR := field }

/-- T2 (R104): the fields come from IR. -/
def t2 (s : State) : State := latchFields (indirectBit s.IR) (addressField s.IR) s

/-- The fetch states by SC (R100). -/
def fetchStates : List (State → State) := [t0, t1, t2]

/-- The indirect state (R107): `AR <- MemRead(AR, 1)[11:0]; SC <- 4`. Bits 15 to 12 of the pointer word are ignored
(D7; log entry 14). -/
def indirectState (s : State) : State :=
  State.endState 4 (State.emit (.memRead s.AR) { s with AR := addressField (s.word s.AR) })

/-- Timing states performed one after another. -/
def performAll (states : List (State → State)) (s : State) : State := states.foldl (fun t f => f t) s

/-! ### Taking an interrupt, and returning from it

The hardware has one way to transfer control to a handler, the interrupt cycle (R200, R213). It has no return
instruction: a handler returns with `BUN 0 I` (R218), which is `execBun true 0`. -/

/-- RT0 (R214): `AR <- 0; TR <- zext_16(PC); SC <- 1`. -/
def rt0 (s : State) : State :=
  State.endState 1 { s with AR := Config.savedPcAddress, TR := s.PC.setWidth 16 }

/-- RT1 (R215): `MemWrite(AR, 1, TR); PC <- 0; SC <- 2`. -/
def rt1 (s : State) : State := State.endState 2 (State.memWrite s.AR s.TR { s with PC := 0 })

/-- RT2 (R216): `PC <- PC + 1; IEN <- 0; R <- 0; SC <- 0`. -/
def rt2 (s : State) : State := State.endState 0 { s with PC := s.PC + 1, IEN := false, R := false }

/-- The interrupt-cycle states by SC (R213; the split is the spec's decision D4, log entry 12). -/
def interruptStates : List (State → State) := [rt0, rt1, rt2]

/-- The whole interrupt cycle (R213 to R217): M[0] <- PC, PC <- 1, IEN <- 0, R <- 0. -/
def interruptCycle (s : State) : State := performAll interruptStates s

/-! ### The DecodeError state -/

/-- The DecodeError state (R202): `S <- 0; SC <- 0; ERR <- DecodeError(IR, PC - 1)`, with no interrupt request test
and no InstructionCompletedEvent. -/
def decodeErrorState (s : State) : State :=
  State.endState 0 { s with S := false, ERR := some (.decodeError s.IR (s.PC - 1)) }

/-! ### Control -/

/-- "Skip" (R14, R163): `PC <- PC + 1` when the condition holds; 12 bits, so 0xFFF wraps to 0x000. -/
def State.skipIf (condition : Bool) (s : State) : State :=
  { s with PC := if condition then s.PC + 1 else s.PC }

/-- `w` placed as the engine's next instruction: at the address PC holds, with the engine running at an instruction
boundary (S = 1, SC = 0, R = 0), as `load` leaves it (R252; log entry 4). -/
def State.placeNext (w : Word) (s : State) : State :=
  { s with M := s.M.set s.PC.toNat w, S := true, SC := 0, R := false }

end Sys2Proof.Machine
end

