-- ==== Sys2Proof/Machine/Operands.lean ====
section
/-! DEFINITION. The operand forms: the effective address of 30_encoding.md rule R74, the operand fetch the
memory-reference instructions share, the timing states of each instruction class, and the registers by name. -/

namespace Sys2Proof.Machine

/-- EA (R74): the address field, or the low 12 bits of the word it points to; one level of indirection. -/
def effectiveAddress (indirect : Bool) (a : Addr) (s : State) : Addr :=
  if indirect then addressField (s.word a) else a

/-- `DR <- MemRead(AR, 1); SC <- SC + 1`: phase 0 of AND, ADD, LDA and ISZ (R131, R133, R135, R142). -/
def fetchOperand (s : State) : State :=
  State.endState (s.SC + 1) (State.emit (.memRead s.AR) { s with DR := s.word s.AR })

/-- A memory-reference instruction's timing states after T2: the indirect state when I = 1, then its execution
phases (R105, R106). -/
def withIndirect (indirect : Bool) (phases : List (State → State)) : List (State → State) :=
  if indirect then indirectState :: phases else phases

/-- A memory-reference instruction from the state T1 left: T2 with its own fields, the indirect state if I = 1, and
its execution phases up to `end_instruction` (R104 to R107). -/
def runMemoryReference (phases : List (State → State)) (indirect : Bool) (a : Addr) (s : State) :
    Host.Outcome State Fault Refusal :=
  .next (performAll (withIndirect indirect phases) (latchFields indirect a s))

/-- A register-reference or input/output instruction from the state T1 left: T2 with the fields of its word `w`, and
its one state T3 (R104, R109). -/
def runSelector (phases : List (State → State)) (w : Word) (s : State) : Host.Outcome State Fault Refusal :=
  .next (performAll phases (latchFields (indirectBit w) (addressField w) s))

/-- The 16 names, in the order of R45. -/
def RegName.all : List RegName :=
  [.AC, .DR, .AR, .PC, .IR, .TR, .OUTR, .INPR, .SC, .E, .S, .IEN, .R, .FGI, .FGO, .I]

/-- A flag as a 16-bit value. -/
def flagWord (b : Bool) : Word := (BitVec.ofBool b).setWidth 16

/-- The value of a register or flag, zero-extended to 16 bits (R45). -/
def RegName.value (r : RegName) (s : State) : Word :=
  match r with
  | .AC => s.AC
  | .DR => s.DR
  | .AR => s.AR.setWidth 16
  | .PC => s.PC.setWidth 16
  | .IR => s.IR
  | .TR => s.TR
  | .OUTR => s.OUTR.setWidth 16
  | .INPR => s.INPR.setWidth 16
  | .SC => s.SC.setWidth 16
  | .E => flagWord s.E
  | .S => flagWord s.S
  | .IEN => flagWord s.IEN
  | .R => flagWord s.R
  | .FGI => flagWord s.FGI
  | .FGO => flagWord s.FGO
  | .I => flagWord s.I

end Sys2Proof.Machine
end

