-- ==== Sys2Proof/Machine/InputOutput.lean ====
section
/-! DEFINITION. The input/output instructions (43_input_output.md): each is the single timing state T3
(40_instruction_cycle.md rule R109), and its meaning runs from the state T1 left to the end of the instruction. -/

namespace Sys2Proof.Machine

/-- INP (R170), T3: `AC <- {AC[15:8], INPR}; FGI <- 0` (D8; log entry 15); `end_instruction`. -/
def inpT3 (s : State) : State := State.endInstruction s { s with AC := s.AC.extractLsb' 8 8 ++ s.INPR, FGI := false }

/-- The one execution state of INP (R170). -/
def inpPhases : List (State → State) := [inpT3]

/-- INP (R170). -/
def execInp (s : State) : Host.Outcome State Fault Refusal := runSelector inpPhases (encode .inp) s

/-- OUT (R171), T3: `OUTR <- AC[7:0]; FGO <- 0`; `end_instruction`. -/
def outT3 (s : State) : State := State.endInstruction s { s with OUTR := s.AC.extractLsb' 0 8, FGO := false }

/-- The one execution state of OUT (R171). -/
def outPhases : List (State → State) := [outT3]

/-- OUT (R171). -/
def execOut (s : State) : Host.Outcome State Fault Refusal := runSelector outPhases (encode .out) s

/-- SKI (R172), T3: skip if `FGI == 1`; FGI is not cleared; `end_instruction`. -/
def skiT3 (s : State) : State := State.endInstruction s (State.skipIf s.FGI s)

/-- The one execution state of SKI (R172). -/
def skiPhases : List (State → State) := [skiT3]

/-- SKI (R172). -/
def execSki (s : State) : Host.Outcome State Fault Refusal := runSelector skiPhases (encode .ski) s

/-- SKO (R173), T3: skip if `FGO == 1`; FGO is not cleared; `end_instruction`. -/
def skoT3 (s : State) : State := State.endInstruction s (State.skipIf s.FGO s)

/-- The one execution state of SKO (R173). -/
def skoPhases : List (State → State) := [skoT3]

/-- SKO (R173). -/
def execSko (s : State) : Host.Outcome State Fault Refusal := runSelector skoPhases (encode .sko) s

/-- ION (R174), T3: `IEN <- 1`; the request test of this state reads the old IEN; `end_instruction`. -/
def ionT3 (s : State) : State := State.endInstruction s { s with IEN := true }

/-- The one execution state of ION (R174). -/
def ionPhases : List (State → State) := [ionT3]

/-- ION (R174). -/
def execIon (s : State) : Host.Outcome State Fault Refusal := runSelector ionPhases (encode .ion) s

/-- IOF (R175), T3: `IEN <- 0`; the request test of this state reads the old IEN; `end_instruction`. -/
def iofT3 (s : State) : State := State.endInstruction s { s with IEN := false }

/-- The one execution state of IOF (R175). -/
def iofPhases : List (State → State) := [iofT3]

/-- IOF (R175). -/
def execIof (s : State) : Host.Outcome State Fault Refusal := runSelector iofPhases (encode .iof) s

end Sys2Proof.Machine
end

