-- ==== Sys2Proof/Machine/MemoryReference.lean ====
section
/-! DEFINITION. The memory-reference instructions (41_memory_reference.md): the execution phases of each, and its
meaning from the state T1 left to the end of the instruction. -/

namespace Sys2Proof.Machine

/-- AND (R131), phase 1: `AC <- AC & DR; end_instruction`. -/
def andFinish (s : State) : State := State.endInstruction s { s with AC := s.AC &&& s.DR }

/-- The phases of AND (R131). -/
def andPhases : List (State → State) := [fetchOperand, andFinish]

/-- AND (R131). -/
def execAnd (indirect : Bool) (a : Addr) (s : State) : Host.Outcome State Fault Refusal :=
  runMemoryReference andPhases indirect a s

/-- ADD (R133), phase 1: AC and E get the exact sum's low 16 bits and its carry. -/
def addFinish (s : State) : State :=
  State.endInstruction s { s with AC := sumWord s.AC s.DR, E := sumCarry s.AC s.DR }

/-- The phases of ADD (R133). -/
def addPhases : List (State → State) := [fetchOperand, addFinish]

/-- ADD (R133). -/
def execAdd (indirect : Bool) (a : Addr) (s : State) : Host.Outcome State Fault Refusal :=
  runMemoryReference addPhases indirect a s

/-- LDA (R135), phase 1: `AC <- DR; end_instruction`. -/
def ldaFinish (s : State) : State := State.endInstruction s { s with AC := s.DR }

/-- The phases of LDA (R135). -/
def ldaPhases : List (State → State) := [fetchOperand, ldaFinish]

/-- LDA (R135). -/
def execLda (indirect : Bool) (a : Addr) (s : State) : Host.Outcome State Fault Refusal :=
  runMemoryReference ldaPhases indirect a s

/-- STA (R137), phase 0: `MemWrite(AR, 1, AC); end_instruction`. -/
def staStore (s : State) : State := State.endInstruction s (State.memWrite s.AR s.AC s)

/-- The phases of STA (R137). -/
def staPhases : List (State → State) := [staStore]

/-- STA (R137). -/
def execSta (indirect : Bool) (a : Addr) (s : State) : Host.Outcome State Fault Refusal :=
  runMemoryReference staPhases indirect a s

/-- BUN (R138), phase 0: `PC <- AR; end_instruction`. -/
def bunBranch (s : State) : State := State.endInstruction s { s with PC := s.AR }

/-- The phases of BUN (R138). -/
def bunPhases : List (State → State) := [bunBranch]

/-- BUN (R138). -/
def execBun (indirect : Bool) (a : Addr) (s : State) : Host.Outcome State Fault Refusal :=
  runMemoryReference bunPhases indirect a s

/-- BSA (R140), phase 0: `MemWrite(AR, 1, zext_16(PC)); PC <- AR + 1; end_instruction`, PC and AR read before the
state; AR is not changed (D3, D6; log entries 13 and 14). -/
def bsaSave (s : State) : State :=
  State.endInstruction s (State.memWrite s.AR (s.PC.setWidth 16) { s with PC := s.AR + 1 })

/-- The phases of BSA (R140). -/
def bsaPhases : List (State → State) := [bsaSave]

/-- BSA (R140). -/
def execBsa (indirect : Bool) (a : Addr) (s : State) : Host.Outcome State Fault Refusal :=
  runMemoryReference bsaPhases indirect a s

/-- ISZ (R142), phase 1: `DR <- DR + 1; SC <- SC + 1`. -/
def iszIncrement (s : State) : State := State.endState (s.SC + 1) { s with DR := s.DR + 1 }

/-- ISZ (R142), phase 2: `MemWrite(AR, 1, DR); if DR == 0: PC <- PC + 1; end_instruction`. -/
def iszStore (s : State) : State :=
  State.endInstruction s (State.skipIf (isZero s.DR) (State.memWrite s.AR s.DR s))

/-- The phases of ISZ (R142). -/
def iszPhases : List (State → State) := [fetchOperand, iszIncrement, iszStore]

/-- ISZ (R142). -/
def execIsz (indirect : Bool) (a : Addr) (s : State) : Host.Outcome State Fault Refusal :=
  runMemoryReference iszPhases indirect a s

end Sys2Proof.Machine
end

