-- ==== Sys2Proof/Machine/RegisterReference.lean ====
section
/-! DEFINITION. The register-reference instructions (42_register_reference.md): each is the single timing state T3
(40_instruction_cycle.md rule R109), and its meaning runs from the state T1 left to the end of the instruction. -/

namespace Sys2Proof.Machine

/-- CLA (R150), T3: `AC <- 0`; `end_instruction`. -/
def claT3 (s : State) : State := State.endInstruction s { s with AC := 0 }

/-- The one execution state of CLA (R150). -/
def claPhases : List (State → State) := [claT3]

/-- CLA (R150). -/
def execCla (s : State) : Host.Outcome State Fault Refusal := runSelector claPhases (encode .cla) s

/-- CLE (R151), T3: `E <- 0`; `end_instruction`. -/
def cleT3 (s : State) : State := State.endInstruction s { s with E := false }

/-- The one execution state of CLE (R151). -/
def clePhases : List (State → State) := [cleT3]

/-- CLE (R151). -/
def execCle (s : State) : Host.Outcome State Fault Refusal := runSelector clePhases (encode .cle) s

/-- CMA (R152), T3: `AC <- ~AC`; `end_instruction`. -/
def cmaT3 (s : State) : State := State.endInstruction s { s with AC := ~~~s.AC }

/-- The one execution state of CMA (R152). -/
def cmaPhases : List (State → State) := [cmaT3]

/-- CMA (R152). -/
def execCma (s : State) : Host.Outcome State Fault Refusal := runSelector cmaPhases (encode .cma) s

/-- CME (R153), T3: `E <- ~E`; `end_instruction`. -/
def cmeT3 (s : State) : State := State.endInstruction s { s with E := !s.E }

/-- The one execution state of CME (R153). -/
def cmePhases : List (State → State) := [cmeT3]

/-- CME (R153). -/
def execCme (s : State) : Host.Outcome State Fault Refusal := runSelector cmePhases (encode .cme) s

/-- CIR (R154), T3: `AC <- {E, AC[15:1]}; E <- AC[0]`, both from the state's start (D8; log entry 15); `end_instruction`. -/
def cirT3 (s : State) : State := State.endInstruction s { s with AC := circulateRight s.E s.AC, E := circulateRightE s.AC }

/-- The one execution state of CIR (R154). -/
def cirPhases : List (State → State) := [cirT3]

/-- CIR (R154). -/
def execCir (s : State) : Host.Outcome State Fault Refusal := runSelector cirPhases (encode .cir) s

/-- CIL (R155), T3: `AC <- {AC[14:0], E}; E <- AC[15]`, both from the state's start (D8; log entry 15); `end_instruction`. -/
def cilT3 (s : State) : State := State.endInstruction s { s with AC := circulateLeft s.E s.AC, E := circulateLeftE s.AC }

/-- The one execution state of CIL (R155). -/
def cilPhases : List (State → State) := [cilT3]

/-- CIL (R155). -/
def execCil (s : State) : Host.Outcome State Fault Refusal := runSelector cilPhases (encode .cil) s

/-- INC (R156), T3: `AC <- AC + 1`, 16 bits; E is not changed (D8; log entry 15); `end_instruction`. -/
def incT3 (s : State) : State := State.endInstruction s { s with AC := s.AC + 1 }

/-- The one execution state of INC (R156). -/
def incPhases : List (State → State) := [incT3]

/-- INC (R156). -/
def execInc (s : State) : Host.Outcome State Fault Refusal := runSelector incPhases (encode .inc) s

/-- SPA (R157), T3: skip if `AC[15] == 0`; `end_instruction`. -/
def spaT3 (s : State) : State := State.endInstruction s (State.skipIf (!signBit s.AC) s)

/-- The one execution state of SPA (R157). -/
def spaPhases : List (State → State) := [spaT3]

/-- SPA (R157). -/
def execSpa (s : State) : Host.Outcome State Fault Refusal := runSelector spaPhases (encode .spa) s

/-- SNA (R158), T3: skip if `AC[15] == 1`; `end_instruction`. -/
def snaT3 (s : State) : State := State.endInstruction s (State.skipIf (signBit s.AC) s)

/-- The one execution state of SNA (R158). -/
def snaPhases : List (State → State) := [snaT3]

/-- SNA (R158). -/
def execSna (s : State) : Host.Outcome State Fault Refusal := runSelector snaPhases (encode .sna) s

/-- SZA (R159), T3: skip if `AC == 0`; `end_instruction`. -/
def szaT3 (s : State) : State := State.endInstruction s (State.skipIf (isZero s.AC) s)

/-- The one execution state of SZA (R159). -/
def szaPhases : List (State → State) := [szaT3]

/-- SZA (R159). -/
def execSza (s : State) : Host.Outcome State Fault Refusal := runSelector szaPhases (encode .sza) s

/-- SZE (R160), T3: skip if `E == 0`; `end_instruction`. -/
def szeT3 (s : State) : State := State.endInstruction s (State.skipIf (!s.E) s)

/-- The one execution state of SZE (R160). -/
def szePhases : List (State → State) := [szeT3]

/-- SZE (R160). -/
def execSze (s : State) : Host.Outcome State Fault Refusal := runSelector szePhases (encode .sze) s

/-- HLT (R161), T3: `S <- 0`; the interrupt request test still runs; `end_instruction`. -/
def hltT3 (s : State) : State := State.endInstruction s { s with S := false }

/-- The one execution state of HLT (R161). -/
def hltPhases : List (State → State) := [hltT3]

/-- HLT (R161). -/
def execHlt (s : State) : Host.Outcome State Fault Refusal := runSelector hltPhases (encode .hlt) s

end Sys2Proof.Machine
end

