-- ==== Sys2Proof/Machine/Dispatch.lean ====
section
/-! DEFINITION. The dispatch: `exec i s` runs the instruction `i` from the state `s` that T1 left (IR fetched, PC
already advanced), through T2 with the fields of `i`, to the end of the instruction (log entry 6). -/

namespace Sys2Proof.Machine

def exec (i : Instr) (s : State) : Host.Outcome State Fault Refusal :=
  match i with
  | .and indirect a => Sys2Proof.Machine.execAnd indirect a s
  | .add indirect a => Sys2Proof.Machine.execAdd indirect a s
  | .lda indirect a => Sys2Proof.Machine.execLda indirect a s
  | .sta indirect a => Sys2Proof.Machine.execSta indirect a s
  | .bun indirect a => Sys2Proof.Machine.execBun indirect a s
  | .bsa indirect a => Sys2Proof.Machine.execBsa indirect a s
  | .isz indirect a => Sys2Proof.Machine.execIsz indirect a s
  | .cla => Sys2Proof.Machine.execCla s
  | .cle => Sys2Proof.Machine.execCle s
  | .cma => Sys2Proof.Machine.execCma s
  | .cme => Sys2Proof.Machine.execCme s
  | .cir => Sys2Proof.Machine.execCir s
  | .cil => Sys2Proof.Machine.execCil s
  | .inc => Sys2Proof.Machine.execInc s
  | .spa => Sys2Proof.Machine.execSpa s
  | .sna => Sys2Proof.Machine.execSna s
  | .sza => Sys2Proof.Machine.execSza s
  | .sze => Sys2Proof.Machine.execSze s
  | .hlt => Sys2Proof.Machine.execHlt s
  | .inp => Sys2Proof.Machine.execInp s
  | .out => Sys2Proof.Machine.execOut s
  | .ski => Sys2Proof.Machine.execSki s
  | .sko => Sys2Proof.Machine.execSko s
  | .ion => Sys2Proof.Machine.execIon s
  | .iof => Sys2Proof.Machine.execIof s

end Sys2Proof.Machine
end

