-- ==== Sys2Proof/Machine/Cycle.lean ====
section
/-! DEFINITION. The control unit: which timing state the engine performs next (40_instruction_cycle.md rule R100), one
timing state (`step_cycle`, R232), a whole instruction timing state by timing state (`step_instruction`, R234), and
the same whole instruction by way of `exec`. -/

namespace Sys2Proof.Machine

/-- The execution states of each instruction, without the indirect state (R108, R109). -/
def phasesOf (i : Instr) : List (State → State) :=
  match i with
  | .and _ _ => andPhases
  | .add _ _ => addPhases
  | .lda _ _ => ldaPhases
  | .sta _ _ => staPhases
  | .bun _ _ => bunPhases
  | .bsa _ _ => bsaPhases
  | .isz _ _ => iszPhases
  | .cla => claPhases
  | .cle => clePhases
  | .cma => cmaPhases
  | .cme => cmePhases
  | .cir => cirPhases
  | .cil => cilPhases
  | .inc => incPhases
  | .spa => spaPhases
  | .sna => snaPhases
  | .sza => szaPhases
  | .sze => szePhases
  | .hlt => hltPhases
  | .inp => inpPhases
  | .out => outPhases
  | .ski => skiPhases
  | .sko => skoPhases
  | .ion => ionPhases
  | .iof => iofPhases

/-- The timing states an instruction performs from SC = 3 on, by the flag I (R100, R105, R106). -/
def statesAfterDecode (i : Instr) (s : State) : List (State → State) :=
  withIndirect (i.isMemoryReference && s.I) (phasesOf i)

/-- The timing state the engine performs next when S = 1 (R100); none where the spec names none (R31). -/
def timingState? (s : State) : Option (State → State) :=
  if s.R then interruptStates[s.SC.toNat]?
  else if s.SC.toNat < 3 then fetchStates[s.SC.toNat]?
  else
    match decode s.IR with
    | .ok i => (statesAfterDecode i s)[s.SC.toNat - 3]?
    | .error _ => if s.SC.toNat = 3 then some decodeErrorState else none

/-- `step_cycle` (R100, R101): one timing state. A halted engine is left as it is. -/
def stepCycle (s : State) : Host.Outcome State Fault Refusal :=
  if s.S then
    match timingState? s with
    | some f => .next (f s)
    | none => .fault (.noTimingState s.SC)
  else .next s

/-- Where `step_instruction` stops: `S == 0 or (SC == 0 and R == 0)` (R234). -/
def atBoundary (s : State) : Bool := !s.S || (s.SC == 0 && !s.R)

/-- The repeat loop of R234 with at most `n` timing states. -/
def repeatCycles : Nat → State → Host.Outcome State Fault Refusal
  | 0, s => .next s
  | n + 1, s =>
    match stepCycle s with
    | .next t => if atBoundary t then .next t else repeatCycles n t
    | .fault f => .fault f
    | .refused r => .refused r

/-- `step_instruction` (R234), timing state by timing state; it performs at most 10. -/
def stepInstruction (s : State) : Host.Outcome State Fault Refusal :=
  if s.S then repeatCycles Config.maxStepStates s else .next s

/-- The interrupt cycle, when the finished instruction set R and the engine runs: the same `step_instruction` call
performs it (R234, D15). -/
def foldInterrupt (s : State) : State := if s.S && s.R then interruptCycle s else s

/-- From the state T1 left (SC = 2): the decoded instruction by `exec` with the interrupt cycle that follows it, or T2
and the DecodeError state for an illegal word (R104, R109, R202). -/
def runFetched (s : State) : Host.Outcome State Fault Refusal :=
  match decode s.IR with
  | .ok i =>
    match exec i s with
    | .next t => .next (foldInterrupt t)
    | .fault f => .fault f
    | .refused r => .refused r
  | .error _ => .next (decodeErrorState (t2 s))

/-- The timing states that remain of the instruction in execution (SC 3 or more), none where SC names none. -/
def remainingStates (s : State) : List (State → State) :=
  match decode s.IR with
  | .ok i => (statesAfterDecode i s).drop (s.SC.toNat - 3)
  | .error _ => if s.SC.toNat = 3 then [decodeErrorState] else []

/-- The remaining states, and the interrupt cycle if one follows; no remaining state is the fault of R31. -/
def finishWith (states : List (State → State)) (s : State) : Host.Outcome State Fault Refusal :=
  match states with
  | [] => .fault (.noTimingState s.SC)
  | _ :: _ => .next (foldInterrupt (performAll states s))

/-- A whole `step_instruction` call (R234) by way of `exec`: from a boundary it fetches and runs one instruction and
the interrupt cycle it triggers; from the middle of an instruction or of the interrupt cycle it completes that. It
equals `stepInstruction` on every state (obligation StepEqualsRepeatedCycles). -/
def stepWhole (s : State) : Host.Outcome State Fault Refusal :=
  if s.S then
    if s.R then finishWith (interruptStates.drop s.SC.toNat) s
    else if s.SC.toNat < 3 then runFetched (performAll ([t0, t1].drop s.SC.toNat) s)
    else finishWith (remainingStates s) s
  else .next s

end Sys2Proof.Machine
end

