-- ==== Sys2Proof/Machine/Step.lean ====
section
/-! DEFINITION. The step of the machine: one `step_instruction` call (60_exceptions.md rule R234; log entry 5). The
single timing state is `stepCycle` (Machine/Cycle.lean). -/

namespace Sys2Proof.Machine

/-- One `step_instruction` call (R234). -/
def step (s : State) : Host.Outcome State Fault Refusal := stepWhole s

/-- `s` with the instruction word `w` placed where the next `step` fetches it, and the engine running at an instruction
boundary: what a `load` of it at PC would leave of M, S, SC and R (R252; log entry 4). -/
def State.withFetchWord (s : State) (nbits w : Nat) : State :=
  State.placeNext (BitVec.ofNat 16 (w % 2 ^ nbits)) s

end Sys2Proof.Machine
end

