-- ==== Sys2Proof/Machine/HostInterface.lean ====
section
/-! DEFINITION. The block's interface to its host (60_exceptions.md sections 3 and 5, 70_reset_and_hazards.md section
2): `load`, host input and output-ready, the events and the report of a timing state, `run`, the observers, and the
moves a host has. -/

namespace Sys2Proof.Machine

/-! ### Load -/

/-- The checks of R253, in the order the rule lists them; the first that fails is the reason (log entry 17). -/
def loadCheck (program : List Nat) (data : List (Nat × Nat)) (origin : Nat) : Option LoadReason :=
  if origin > 0xFFF then some .originOutOfRange
  else if origin + program.length > Config.memWords then some .programTooLong
  else if data.any (fun p => p.1 > 0xFFF) then some .dataAddressOutOfRange
  else if program.any (fun w => w ≥ 0x10000) || data.any (fun p => p.2 ≥ 0x10000) then some .wordTooLarge
  else none

/-- `for k in 0 .. len-1: M[a + k] <- words[k]` (R252). -/
def placeProgram (m : Memory) (a : Nat) : List Nat → Memory
  | [] => m
  | w :: rest => placeProgram (m.set a (BitVec.ofNat 16 w)) (a + 1) rest

/-- `for (a, w) in data_words, in order: M[a] <- w`; a later pair wins (R252). -/
def placeData (m : Memory) : List (Nat × Nat) → Memory
  | [] => m
  | (a, w) :: rest => placeData (m.set a (BitVec.ofNat 16 w)) rest

/-- The memory `load` leaves: all zero, then the program, then the data (R252). -/
def imageMemory (program : List Nat) (data : List (Nat × Nat)) (origin : Nat) : Memory :=
  placeData (placeProgram [] origin program) data

/-- `load(program_words, data_words, origin)` (R252, R253). A failed load changes nothing (R205): the caller keeps the
state it had. -/
def load (program : List Nat) (data : List (Nat × Nat)) (origin : Nat) : Except EngineError State :=
  match loadCheck program data origin with
  | some reason => .error (.loadError reason)
  | none =>
    .ok { State.reset with PC := BitVec.ofNat 12 origin, S := true, M := imageMemory program data origin }

/-! ### Input and output -/

/-- `host_input(b)` (R222): `INPR <- b; FGI <- 1`. -/
def hostInput (b : IoByte) (s : State) : State := { s with INPR := b, FGI := true }

/-- `host_output_ready()` (R223): `FGO <- 1`. -/
def hostOutputReady (s : State) : State := { s with FGO := true }

/-! ### Events and the report of a timing state -/

/-- The phase of the instruction in execution: `p = SC - 3 - I` for a memory-reference instruction (R106), 0 for the
others. -/
def phaseIndex (i : Instr) (s : State) : Nat :=
  s.SC.toNat - 3 - (if i.isMemoryReference && s.I then 1 else 0)

/-- The accesses of each instruction's execution phases, by the table of R58. -/
def phaseAccesses (i : Instr) (phase : Nat) (s : State) : List Event :=
  match i, phase with
  | .and _ _, 0 | .add _ _, 0 | .lda _ _, 0 | .isz _ _, 0 => [.memRead s.AR]
  | .sta _ _, 0 | .bsa _ _, 0 | .isz _ _, 2 => [.memWrite s.AR]
  | _, _ => []

/-- The number of execution phases (R108, R109). -/
def phaseCount : Instr → Nat
  | .and _ _ | .add _ _ | .lda _ _ => 2
  | .isz _ _ => 3
  | .sta _ _ | .bun _ _ | .bsa _ _ => 1
  | .cla | .cle | .cma | .cme | .cir | .cil | .inc | .spa | .sna | .sza | .sze | .hlt
  | .inp | .out | .ski | .sko | .ion | .iof => 1

/-- The access and completion events of a state of an instruction's execution (R58, R230). -/
def executionEvents (i : Instr) (s : State) : List Event :=
  if i.isMemoryReference && s.I && s.SC.toNat == 3 then [.memRead s.AR]
  else phaseAccesses i (phaseIndex i s) s
    ++ (if phaseIndex i s + 1 = phaseCount i then [.instructionCompleted] else [])

/-- The events the next timing state emits (R230), read from the tables of R58 and R108 and not from the timing
states themselves. -/
def cycleEvents (s : State) : List Event :=
  if s.S && (timingState? s).isSome then
    (if s.R then (if s.SC.toNat = 1 then [Event.memWrite s.AR] else [])
      else if s.SC.toNat = 1 then [Event.memRead s.AR]
      else if s.SC.toNat < 3 then []
      else
        match decode s.IR with
        | .ok i => executionEvents i s
        | .error _ => []) ++ [.cycle]
  else []

/-- Whether the next timing state is the DecodeError state (R202). -/
def atDecodeError (s : State) : Bool :=
  s.S && !s.R && s.SC.toNat == 3 &&
    match decode s.IR with
    | .ok _ => false
    | .error _ => true

/-- What `step_cycle` returns (R232). -/
structure CycleReport where
  /-- The new SC. -/
  sc : SeqCount
  /-- The registers and flags whose value changed. -/
  changed : List RegName
  /-- The memory addresses written. -/
  written : List Addr
  /-- The error, if the state raised one. -/
  error : Option EngineError
  deriving DecidableEq, Repr

/-- The address an event wrote, if it is a write. -/
def Event.writtenAddress : Event → Option Addr
  | .memWrite a => some a
  | .cycle | .instructionCompleted | .memRead _ => none

/-- The report of the timing state that led from `s` to `t` (R232, D23). -/
def cycleReport (s t : State) : CycleReport where
  sc := t.SC
  changed := RegName.all.filter (fun r => r.value s != r.value t)
  written := (cycleEvents s).filterMap Event.writtenAddress
  error := if atDecodeError s then t.ERR else none

/-- `step_cycle()` with what it returns (R232). -/
def stepCycleReport (s : State) : Host.Outcome (State × CycleReport) Fault Refusal :=
  match stepCycle s with
  | .next t => .next (t, cycleReport s t)
  | .fault f => .fault f
  | .refused r => .refused r

/-! ### Run -/

/-- The loop of `run` with a limit: `while S == 1 and calls < limit: step_instruction()` (R233). -/
def runLimited : Nat → State → Host.Outcome State Fault Refusal
  | 0, s => .next s
  | n + 1, s =>
    if s.S then
      match step s with
      | .next t => runLimited n t
      | .fault f => .fault f
      | .refused r => .refused r
    else .next s

/-- What `run` returns (R233). -/
structure RunReport where
  /-- The InstructionCompletedEvents the run emitted. -/
  completed : Nat
  /-- The error, if this run halted the engine on one (log entry 26). -/
  error : Option EngineError
  deriving DecidableEq, Repr

/-- The report of a run that led from `s` to `t`: the counters are never reset by `run` (R231), so the events it emitted
are the difference. -/
def runReport (s t : State) : RunReport where
  completed := t.profiler.instructions - s.profiler.instructions
  error := if s.S && !t.S then t.ERR else none

/-- `run(limit)` with a limit, RUN_LIMIT (R7, R233). -/
def run (limit : Nat) (s : State) : Host.Outcome (State × RunReport) Fault Refusal :=
  match runLimited limit s with
  | .next t => .next (t, runReport s t)
  | .fault f => .fault f
  | .refused r => .refused r

/-- `run()` with no limit returns in the state `t` (R233). It need not return, so it is a relation (log entry 19). -/
def RunReturns (s t : State) : Prop := ∃ limit, runLimited limit s = .next t ∧ t.S = false

/-! ### Observers -/

/-- The spelling of a register name (R45). -/
def RegName.spelling : RegName → String
  | .AC => "AC"
  | .DR => "DR"
  | .AR => "AR"
  | .PC => "PC"
  | .IR => "IR"
  | .TR => "TR"
  | .OUTR => "OUTR"
  | .INPR => "INPR"
  | .SC => "SC"
  | .E => "E"
  | .S => "S"
  | .IEN => "IEN"
  | .R => "R"
  | .FGI => "FGI"
  | .FGO => "FGO"
  | .I => "I"

/-- `read_register(name)` (R45, R204). -/
def readRegister (name : String) (s : State) : Except EngineError Word :=
  match RegName.all.find? (fun r => r.spelling == name) with
  | some r => .ok (r.value s)
  | none => .error (.unknownRegister name)

/-- `read_memory(address, count)` (R67): it fails exactly when `address + count > 4096`. -/
def readMemory (address count : Nat) (s : State) : Except EngineError (List Word) :=
  if address + count > Config.memWords then .error (.addressOutOfRange address count)
  else .ok ((List.range count).map (fun k => s.M.read (address + k)))

/-- What `profiler_snapshot()` returns (R231): `cpi` is the exact quotient, none for `undefined`. -/
structure Snapshot where
  cycles : Nat
  instructions : Nat
  cpi : Option Rat
  reads : Nat
  writes : Nat
  deriving DecidableEq, Repr

/-- `profiler_snapshot()` (R231, D18). -/
def profilerSnapshot (s : State) : Snapshot where
  cycles := s.profiler.cycles
  instructions := s.profiler.instructions
  cpi := if s.profiler.instructions = 0 then none
    else some ((s.profiler.cycles : Rat) / (s.profiler.instructions : Rat))
  reads := s.profiler.reads
  writes := s.profiler.writes

/-! ### The host's moves -/

/-- The moves of R236: all that a host can do to the engine (R224). -/
inductive HostMove where
  | load (program : List Nat) (data : List (Nat × Nat)) (origin : Nat)
  | stepCycle
  | stepInstruction
  | run (limit : Nat)
  | input (b : IoByte)
  | outputReady
  | readRegister (name : String)
  | readMemory (address count : Nat)
  | profilerSnapshot
  deriving DecidableEq, Repr

/-- The state a host's move leaves. A failed load and the observers leave it as it was (R205, R235). -/
def HostMove.perform (m : HostMove) (s : State) : Host.Outcome State Fault Refusal :=
  match m with
  | .load program data origin =>
    match Machine.load program data origin with
    | .ok t => .next t
    | .error _ => .next s
  | .stepCycle => Machine.stepCycle s
  | .stepInstruction => step s
  | .run limit => runLimited limit s
  | .input b => .next (hostInput b s)
  | .outputReady => .next (hostOutputReady s)
  | .readRegister _ => .next s
  | .readMemory _ _ => .next s
  | .profilerSnapshot => .next s

end Sys2Proof.Machine
end

