-- ==== Sys2Proof/Safety.lean ====
section
/-! DEFINITION. The invariant of 10_state.md rule R41 and of the rules it rests on, and what the end of a run and a
safe run mean (60_exceptions.md rule R237). -/

namespace Sys2Proof.Machine

/-- What holds in every state the engine reaches (R41, with R30, R31, R102 to R107, R202, R214, R215). -/
structure State.Inv (s : State) : Prop where
  /-- The memory list keeps its canonical form: addresses 0 to 0xFFF, rising, no zero word listed (R39). -/
  memory_canonical : s.M.wf = true
  /-- R41 (d): when R = 1, SC is 0 to 2. -/
  interrupt_sc : s.R = true → s.SC.toNat ≤ 2
  /-- R31: when R = 0, SC is 0 to 6. -/
  normal_sc : s.R = false → s.SC.toNat ≤ 6
  /-- A halted engine stands at an instruction boundary: HLT, the DecodeError state and construction leave SC = 0. -/
  halted_sc : s.S = false → s.SC = 0
  /-- After T2, I is bit 15 of IR (R104, R36). -/
  indirect_latched : s.R = false → 3 ≤ s.SC.toNat → s.I = indirectBit s.IR
  /-- After T2, SC names a state of the instruction in IR (R100, R106, R108, R109). -/
  state_exists : s.R = false → 3 ≤ s.SC.toNat → (timingState? s).isSome = true
  /-- After T0, AR holds the fetch address (R102). -/
  fetch_address : s.R = false → s.SC = 1 → s.AR = s.PC
  /-- After T1, PC is the instruction's address plus 1 (R103, R25). -/
  fetched_address : s.R = false → s.SC = 2 → s.PC = s.AR + 1
  /-- After T2, AR is the address field (R104). -/
  field_latched : s.R = false → s.SC = 3 → s.AR = addressField s.IR
  /-- After RT0, AR is 0 and TR is the PC to save (R214). -/
  saved_pc : s.R = true → s.SC = 1 → s.AR = 0 ∧ s.TR = s.PC.setWidth 16
  /-- After RT1, PC is 0 and M[0] holds TR (R215). -/
  stored_pc : s.R = true → s.SC = 2 → s.PC = 0 ∧ s.M.read 0 = s.TR
  /-- ERR is none, or the engine is halted on a DecodeError (R42, R201). -/
  error_halts : s.ERR = none ∨ (s.S = false ∧ ∃ w a, s.ERR = some (.decodeError w a))

/-- A run has ended normally: HLT was executed (R237). -/
def endedNormally (s : State) : Prop := s.S = false ∧ s.ERR = none

/-- A run has ended in error (R237). -/
def endedInError (s : State) : Prop := s.S = false ∧ ∃ w a, s.ERR = some (.decodeError w a)

/-- `n` steps from `s` reach a next state and meet no illegal word: what a claim of correct execution assumes
(93_implementation_defined.md part 1, item 1). -/
def SafeRun (n : Nat) (s : State) : Prop := ∃ t, Sys2Proof.core.run n s = .next t ∧ t.ERR = none

end Sys2Proof.Machine
end

