-- ==== Sys2Proof/WellFormed.lean ====
section
/-! DEFINITION. Which words are legal (30_encoding.md rule R78), said by counting selector bits and not by the
decoder's tables; an instruction is well formed when its word is legal. The operand types of `Instr` have the
exact widths of the fields, so every term of `Instr` is well formed (log entry 25). -/

namespace Sys2Proof

/-- How many selector bits of `IR[11:0]` are set (`popcount` of rule R79). -/
def selectorCount (a : Addr) : Nat :=
  ((List.range 12).filter (fun k => a.getLsbD k)).length

/-- R78, first item: a register-reference selector is legal when exactly one bit is set. -/
def legalRegisterSelector (a : Addr) : Bool := selectorCount a == 1

/-- R78, second item: an input/output selector is legal when exactly one bit is set and it is not in bits 5 to 0. -/
def legalIoSelector (a : Addr) : Bool := selectorCount a == 1 && a.extractLsb' 0 6 == 0

/-- R78: which of the 65536 words are legal. No memory-reference word is illegal. -/
def legalWord (w : Word) : Bool :=
  if w.extractLsb' 12 3 != 7 then true
  else if w.getLsbD 15 then legalIoSelector (w.extractLsb' 0 12)
  else legalRegisterSelector (w.extractLsb' 0 12)

/-- An instruction is well formed when the word the spec's tables give it is legal. -/
def Instr.wf (i : Instr) : Bool := legalWord (encode i)

end Sys2Proof
end

