-- ==== Sys2Proof/Certificates/Slice0/Obligations.lean ====
section
/-! DEFINITION. The statements for the provers. Each docstring names the rule of spec/ it formalises; where a clause
rests on a decision of the spec (D<n> of 92_eei_decisions.md) or on a choice of the model (log entry <n>), it says so. -/

open Sys2Proof Sys2Proof.Machine

namespace Sys2Proof.Statements

/-! ### What the statements are written with -/

/-- Every register and flag outside `written` keeps its value. -/
def keepsRegisters (written : List RegName) (s t : State) : Prop :=
  ∀ r : RegName, r ∉ written → r.value t = r.value s

/-- Every word of memory keeps its value. -/
def keepsMemory (s t : State) : Prop := ∀ a : Nat, t.M.read a = s.M.read a

/-- Every word of memory outside address `stored` keeps its value. -/
def keepsMemoryBut (stored : Addr) (s t : State) : Prop :=
  ∀ a : Nat, a ≠ stored.toNat → t.M.read a = s.M.read a

/-- The request rule of R211 between the state a last timing state began in and the state after it:
`if IEN == 1 and (FGI == 1 or FGO == 1) and R == 0: R <- 1`. -/
def requestRule (s t : State) : Prop :=
  t.R = if s.IEN = true ∧ (s.FGI = true ∨ s.FGO = true) ∧ s.R = false then true else s.R

/-- `end_instruction` (R112): SC <- 0, the request rule, one InstructionCompletedEvent. -/
def endsInstruction (s t : State) : Prop :=
  t.SC = 0 ∧ requestRule s t ∧ t.profiler.instructions = s.profiler.instructions + 1

/-- The engine is about to perform phase `p` of the memory-reference instruction `i` (R106): timing state
T(3 + I + p), with the word of `i` in IR. -/
def inPhase (i : Instr) (indirect : Bool) (p : Nat) (s : State) : Prop :=
  s.S = true ∧ s.R = false ∧ s.IR = encode i ∧ s.I = indirect ∧
    s.SC.toNat = 3 + (if indirect then 1 else 0) + p

/-- In phase `p` of `i` the timing state goes from `s` to a state related to it by `post`. -/
def phaseDoes (i : Instr) (indirect : Bool) (p : Nat) (post : State → State → Prop) : Prop :=
  ∀ s : State, inPhase i indirect p s → ∃ t, stepCycle s = .next t ∧ post s t

/-- Phase 0 of AND, ADD, LDA and ISZ: `DR <- MemRead(AR, 1); SC <- SC + 1`, with its one MemReadEvent. -/
def loadsOperand (s t : State) : Prop :=
  t.DR = s.M.read s.AR.toNat ∧ t.SC = s.SC + 1 ∧ t.profiler.reads = s.profiler.reads + 1

/-- The effective address of R74, as the meanings compute it, when an instruction's T2 begins. -/
abbrev ea (indirect : Bool) (a : Addr) (s : State) : Addr := effectiveAddress indirect a s

/-- The operand `M[EA]`. -/
def operand (indirect : Bool) (a : Addr) (s : State) : Word := s.M.read (ea indirect a s).toNat

/-- The word `Iooo aaaa aaaa aaaa` by its fields (R71, R73). -/
def wordHas (w : Word) (indirect : Bool) (opcode : BitVec 3) (a : Addr) : Prop :=
  w.getLsbD 15 = indirect ∧ w.extractLsb' 12 3 = opcode ∧ w.extractLsb' 0 12 = a

/-- The state after T0 and T1 at an instruction boundary: the instruction's word is in IR, PC is past it. -/
def fetched (s : State) : State :=
  { s with
    AR := s.PC
    IR := s.M.read s.PC.toNat
    PC := s.PC + 1
    SC := 2
    profiler := ⟨s.profiler.cycles + 2, s.profiler.instructions, s.profiler.reads + 1, s.profiler.writes⟩ }

/-- The engine runs and stands at an instruction boundary with no interrupt cycle to perform. -/
def readyToFetch (s : State) : Prop := s.S = true ∧ s.R = false ∧ s.SC = 0

/-- `n` executions of one instruction, one after another. -/
def execTimes (i : Instr) : Nat → State → Host.Outcome State Fault Refusal
  | 0, s => .next s
  | n + 1, s =>
    match exec i s with
    | .next t => execTimes i n t
    | .fault f => .fault f
    | .refused r => .refused r

/-- Exactly one of the 12 selector bits of a word is set, and it is bit `k`. -/
def onlySelectorBit (w : Word) (k : Nat) : Prop := k < 12 ∧ ∀ j, j < 12 → (w.getLsbD j = true ↔ j = k)

/-- How many timing states an instruction takes from T2 on (R113 less T0 and T1). -/
def statesFromT2 : Instr → Nat
  | .and ind _ | .add ind _ | .lda ind _ => if ind then 4 else 3
  | .sta ind _ | .bun ind _ | .bsa ind _ => if ind then 3 else 2
  | .isz ind _ => if ind then 5 else 4
  | .cla | .cle | .cma | .cme | .cir | .cil | .inc | .spa | .sna | .sza | .sze | .hlt
  | .inp | .out | .ski | .sko | .ion | .iof => 2

/-- The memory reads of an instruction after its fetch (R58). -/
def readsAfterFetch : Instr → Nat
  | .and ind _ | .add ind _ | .lda ind _ | .isz ind _ => if ind then 2 else 1
  | .sta ind _ | .bun ind _ | .bsa ind _ => if ind then 1 else 0
  | .cla | .cle | .cma | .cme | .cir | .cil | .inc | .spa | .sna | .sza | .sze | .hlt
  | .inp | .out | .ski | .sko | .ion | .iof => 0

/-- The memory writes of an instruction (R58). -/
def writesOf : Instr → Nat
  | .sta _ _ | .bsa _ _ | .isz _ _ => 1
  | .and _ _ | .add _ _ | .lda _ _ | .bun _ _
  | .cla | .cle | .cma | .cme | .cir | .cil | .inc | .spa | .sna | .sza | .sze | .hlt
  | .inp | .out | .ski | .sko | .ion | .iof => 0

/-- The instructions AC is written by (R21). -/
def writesAC : Instr → Bool
  | .and _ _ | .add _ _ | .lda _ _ | .cla | .cma | .cir | .cil | .inc | .inp => true
  | .sta _ _ | .bun _ _ | .bsa _ _ | .isz _ _ | .cle | .cme | .spa | .sna | .sza | .sze | .hlt
  | .out | .ski | .sko | .ion | .iof => false

/-- The instructions E is written by (R32). -/
def writesE : Instr → Bool
  | .add _ _ | .cle | .cme | .cir | .cil => true
  | .and _ _ | .lda _ _ | .sta _ _ | .bun _ _ | .bsa _ _ | .isz _ _ | .cla | .cma | .inc | .spa | .sna
  | .sza | .sze | .hlt | .inp | .out | .ski | .sko | .ion | .iof => false

/-- The instructions DR is written by (R23). -/
def writesDR : Instr → Bool
  | .and _ _ | .add _ _ | .lda _ _ | .isz _ _ => true
  | .sta _ _ | .bun _ _ | .bsa _ _ | .cla | .cle | .cma | .cme | .cir | .cil | .inc | .spa | .sna | .sza
  | .sze | .hlt | .inp | .out | .ski | .sko | .ion | .iof => false

/-- R163: when the instruction executes PC already holds its address plus 1, so a skip taken continues at PC + 1 modulo
4096 and one not taken at PC. -/
def skipsWhen (condition : Prop) (s t : State) : Prop :=
  (condition → t.PC.toNat = (s.PC.toNat + 1) % 4096) ∧ (¬ condition → t.PC = s.PC)

/-- The execution phase that stores, by the table of R58: phase 0 of STA and BSA, phase 2 of ISZ. -/
def storePhase : Instr → Option Nat
  | .sta _ _ | .bsa _ _ => some 0
  | .isz _ _ => some 2
  | .and _ _ | .add _ _ | .lda _ _ | .bun _ _
  | .cla | .cle | .cma | .cme | .cir | .cil | .inc | .spa | .sna | .sza | .sze | .hlt
  | .inp | .out | .ski | .sko | .ion | .iof => none

/-- The next timing state is one that writes memory (R58): the storing phase of STA, BSA or ISZ, in timing state
T(3 + I + p) (R106), or RT1 (R215). -/
def storesNow (s : State) : Prop :=
  s.S = true ∧
    ((s.R = true ∧ s.SC = 1) ∨
      (s.R = false ∧ ∃ i p, decode s.IR = .ok i ∧ storePhase i = some p ∧
        s.SC.toNat = 3 + (if s.I then 1 else 0) + p))

/-- Two timing states from `s`, T0 and T1, fetch the word `w` into IR. -/
def fetches (s : State) (w : Word) : Prop :=
  ∃ t u, stepCycle s = .next t ∧ stepCycle t = .next u ∧ u.IR = w ∧ u.SC = 2

/-- The word `w`, stored at `address` by what led to `t`, is the one a later fetch from there gets: `t` itself may be the
state that fetches, or any state with its memory. Where an interrupt cycle follows and the store was to the entry address
1, the first fetch of the handler gets it. -/
def storeIsFetched (t : State) (address : Addr) (w : Word) : Prop :=
  (∀ u : State, u.M = t.M → readyToFetch u → u.PC = address → fetches u w) ∧
  (t.S = true → t.R = true → t.SC = 0 → address = 1 → ∃ u, step t = .next u ∧ fetches u w)

/-- The instructions R114 names as leaving sequence: BUN, BSA and the skips. -/
def leavesSequence : Instr → Bool
  | .bun _ _ | .bsa _ _ | .isz _ _ | .spa | .sna | .sza | .sze | .ski | .sko => true
  | .and _ _ | .add _ _ | .lda _ _ | .sta _ _ | .cla | .cle | .cma | .cme | .cir | .cil | .inc | .hlt
  | .inp | .out | .ion | .iof => false

/-- One outcome followed by another. -/
def andThen (first : Host.Outcome State Fault Refusal) (next : State → Host.Outcome State Fault Refusal) :
    Host.Outcome State Fault Refusal :=
  match first with
  | .next t => next t
  | .fault f => .fault f
  | .refused e => .refused e

/-- Exactly `calls` calls of `step_instruction`, each on an engine that still runs, lead from `s` to `t`. -/
def stepsTo : Nat → State → State → Prop
  | 0, s, t => t = s
  | calls + 1, s, t => s.S = true ∧ ∃ u, step s = .next u ∧ stepsTo calls u t

end Sys2Proof.Statements

open Sys2Proof.Statements

/-! ### Encoding and decoding -/

/-- Decoding the word of any instruction gives the instruction back, with every operand at every value (R71 to R79). -/
def Obligations.DecodeEncodeRoundTrip : Prop :=
  ∀ i : Instr, i.wf = true ∧ decode (encode i) = .ok i

/-- A word has at most one meaning, and it is the word the tables give that meaning (R79). -/
def Obligations.EncodeDecodeRoundTrip : Prop :=
  ∀ (w : Word) (i : Instr), decode w = .ok i → encode i = w

/-- R78: exactly the words it lists are illegal. With opcode 0 to 6 every word is legal; with opcode 7 and I = 0 exactly
one selector bit must be set, with I = 1 exactly one and not in bits 5 to 0 (the last clause is decision D10, log entry
16). An illegal word is rejected under the name of its class. -/
def Obligations.IllegalWordsAreExactlyThose : Prop :=
  ∀ w : Word,
    ((∃ i, decode w = .ok i) ↔
      w.extractLsb' 12 3 ≠ 7 ∨
      (w.getLsbD 15 = false ∧ ∃ k, onlySelectorBit w k) ∨
      (w.getLsbD 15 = true ∧ ∃ k, 6 ≤ k ∧ onlySelectorBit w k)) ∧
    (decode w = .error .registerReferenceSelector → w.extractLsb' 12 3 = 7 ∧ w.getLsbD 15 = false) ∧
    (decode w = .error .inputOutputSelector → w.extractLsb' 12 3 = 7 ∧ w.getLsbD 15 = true)

/-- R73: the hexadecimal words of the seven memory-reference instructions, "add the address to it". -/
def Obligations.MemoryReferenceWords : Prop :=
  ∀ a : Addr,
    (encode (.and false a)).toNat = 0x0000 + a.toNat ∧ (encode (.and true a)).toNat = 0x8000 + a.toNat ∧
    (encode (.add false a)).toNat = 0x1000 + a.toNat ∧ (encode (.add true a)).toNat = 0x9000 + a.toNat ∧
    (encode (.lda false a)).toNat = 0x2000 + a.toNat ∧ (encode (.lda true a)).toNat = 0xA000 + a.toNat ∧
    (encode (.sta false a)).toNat = 0x3000 + a.toNat ∧ (encode (.sta true a)).toNat = 0xB000 + a.toNat ∧
    (encode (.bun false a)).toNat = 0x4000 + a.toNat ∧ (encode (.bun true a)).toNat = 0xC000 + a.toNat ∧
    (encode (.bsa false a)).toNat = 0x5000 + a.toNat ∧ (encode (.bsa true a)).toNat = 0xD000 + a.toNat ∧
    (encode (.isz false a)).toNat = 0x6000 + a.toNat ∧ (encode (.isz true a)).toNat = 0xE000 + a.toNat

/-- Words of each family written out bit by bit from the spec's tables decode to what they stand for: memory-reference
words of R73, and all 18 selector words of R76 and R77. The selector bits are decision D1 of the spec (log entry 10). Words
with no or two selector bits are illegal (R78), and so is an input/output word with its bit in 5 to 0, which is decision
D10 (log entry 16). -/
def Obligations.SampleWordsDecode : Prop :=
  decode 0b0010000000010100#16 = .ok (.lda false 0x014) ∧
  decode 0b0001000000010101#16 = .ok (.add false 0x015) ∧
  decode 0b1000001000000001#16 = .ok (.and true 0x201) ∧
  decode 0b0011000000010110#16 = .ok (.sta false 0x016) ∧
  decode 0b1100000000000000#16 = .ok (.bun true 0x000) ∧
  decode 0b1110001000000001#16 = .ok (.isz true 0x201) ∧
  decode 0b0101111111111111#16 = .ok (.bsa false 0xFFF) ∧
  decode 0b0111100000000000#16 = .ok .cla ∧
  decode 0b0111010000000000#16 = .ok .cle ∧
  decode 0b0111001000000000#16 = .ok .cma ∧
  decode 0b0111000100000000#16 = .ok .cme ∧
  decode 0b0111000010000000#16 = .ok .cir ∧
  decode 0b0111000001000000#16 = .ok .cil ∧
  decode 0b0111000000100000#16 = .ok .inc ∧
  decode 0b0111000000010000#16 = .ok .spa ∧
  decode 0b0111000000001000#16 = .ok .sna ∧
  decode 0b0111000000000100#16 = .ok .sza ∧
  decode 0b0111000000000010#16 = .ok .sze ∧
  decode 0b0111000000000001#16 = .ok .hlt ∧
  decode 0b1111100000000000#16 = .ok .inp ∧
  decode 0b1111010000000000#16 = .ok .out ∧
  decode 0b1111001000000000#16 = .ok .ski ∧
  decode 0b1111000100000000#16 = .ok .sko ∧
  decode 0b1111000010000000#16 = .ok .ion ∧
  decode 0b1111000001000000#16 = .ok .iof ∧
  decode 0b0111000000000000#16 = .error .registerReferenceSelector ∧
  decode 0b0111000000000011#16 = .error .registerReferenceSelector ∧
  decode 0b1111000000000000#16 = .error .inputOutputSelector ∧
  decode 0b1111000000100000#16 = .error .inputOutputSelector

/-! ### The instruction cycle -/

/-- A step at an instruction boundary runs the instruction whose word stands at PC: T0 and T1, then `exec` of it, then
the interrupt cycle if the instruction left R = 1 on a running engine (R100, R102, R103, R234; log entries 5 and 6). -/
def Obligations.StepRunsDecodedInstruction : Prop :=
  ∀ (s : State) (i : Instr), readyToFetch s → decode (s.M.read s.PC.toNat) = .ok i →
    ∃ t, exec i (fetched s) = .next t ∧
      step s = .next (if t.S = true ∧ t.R = true then rt2 (rt1 (rt0 t)) else t)

/-- `step`, which goes through `exec`, is on every state the `step_instruction` of R234: `step_cycle` repeated until
S = 0 or (SC = 0 and R = 0), faults included (the stopping point is decision D15). -/
def Obligations.StepEqualsRepeatedCycles : Prop := ∀ s : State, step s = stepInstruction s

/-- R234: step_instruction always ends at SC = 0 with R = 0, or halted, after at most 10 timing states. Where it stops is
decision D15 (log entry 5); the 10 counts the three states of the interrupt cycle, decision D4 (log entry 12), and the
states of R113, which rest on D2 and D3 (log entry 13). -/
def Obligations.StepEndsAtBoundary : Prop :=
  ∀ s t : State, step s = .next t →
    (t.S = false ∨ (t.SC = 0 ∧ t.R = false)) ∧ t.profiler.cycles ≤ s.profiler.cycles + 10

/-- R101: a halted engine performs no timing state, changes nothing and emits no event. That the step is no error is
decision D14 (log entry 23), and the report of the current SC with two empty sets is decision D23 (log entry 21). That
`run` there returns 0 and no error, even where an earlier DecodeError halted the engine, is the model's reading of R233
(log entry 26). -/
def Obligations.HaltedEngineStays : Prop :=
  ∀ (s : State) (limit : Nat), s.S = false →
    step s = .next s ∧ stepCycle s = .next s ∧ cycleEvents s = [] ∧
    stepCycleReport s = .next (s, ⟨s.SC, [], [], none⟩) ∧
    run limit s = .next (s, ⟨0, none⟩)

/-- R102, R103, R104: the transfers of T0, T1 and T2. -/
def Obligations.FetchAndDecodeStates : Prop :=
  ∀ s : State, s.S = true → s.R = false →
    (s.SC = 0 → ∃ t, stepCycle s = .next t ∧ t.AR = s.PC ∧ t.SC = 1 ∧ t.M = s.M ∧
      t.profiler.reads = s.profiler.reads ∧ t.profiler.writes = s.profiler.writes) ∧
    (s.SC = 1 → ∃ t, stepCycle s = .next t ∧ t.IR = s.M.read s.AR.toNat ∧ t.PC = s.PC + 1 ∧ t.SC = 2 ∧
      t.profiler.reads = s.profiler.reads + 1) ∧
    (s.SC = 2 → ∃ t, stepCycle s = .next t ∧ t.I = s.IR.getLsbD 15 ∧ t.AR = s.IR.extractLsb' 0 12 ∧ t.SC = 3 ∧
      t.M = s.M ∧ t.profiler.reads = s.profiler.reads ∧ t.profiler.writes = s.profiler.writes ∧ t.ERR = s.ERR)

/-- R107: the indirect state loads AR with the low 12 bits of the pointer word and changes nothing else but SC and the
counters (that bits 15 to 12 are ignored is decision D7, log entry 14; the frame is D8, log entry 15). -/
def Obligations.IndirectStateLoadsPointer : Prop :=
  ∀ s : State, s.S = true → s.R = false → s.SC = 3 → s.I = true → s.IR.extractLsb' 12 3 ≠ 7 →
    ∃ t, stepCycle s = .next t ∧ t.AR = (s.M.read s.AR.toNat).extractLsb' 0 12 ∧ t.SC = 4 ∧
      keepsRegisters [.AR, .SC] s t ∧ keepsMemory s t ∧ t.ERR = s.ERR ∧
      t.profiler = ⟨s.profiler.cycles + 1, s.profiler.instructions, s.profiler.reads + 1, s.profiler.writes⟩

/-- Every instruction answers a next state, whatever the registers and flags hold (R226, decision D22). It ends at SC = 0
having tested the interrupt request on IEN, FGI, FGO and R as they were when its last state began, which is as they were
when it began (R112, R211; the sampling point is decision D5, log entry 11). It counts the timing states of R113, which for
a direct memory-reference instruction and for BSA rest on decisions D2 and D3 (log entry 13), and the reads and writes of
R58 (what is counted is decisions D19 and D26, log entry 22). -/
def Obligations.EveryInstructionCompletesWithItsCounts : Prop :=
  ∀ (i : Instr) (s : State), ∃ t, exec i s = .next t ∧ t.SC = 0 ∧ requestRule s t ∧ t.ERR = s.ERR ∧
    t.profiler = ⟨s.profiler.cycles + statesFromT2 i, s.profiler.instructions + 1,
      s.profiler.reads + readsAfterFetch i, s.profiler.writes + writesOf i⟩

/-! ### Memory-reference instructions -/

/-- R131: AND, its word, its two phases, and its effect from T2 to its end. In this and the other memory-reference
statements the timing state of a phase is decision D2 (log entry 13), and the low 12 bits of the pointer word in an
indirect effective address are decision D7 (log entry 14). -/
def Obligations.AndMasksAccumulator : Prop :=
  ∀ (ind : Bool) (a : Addr),
    wordHas (encode (.and ind a)) ind 0b000 a ∧
    phaseDoes (.and ind a) ind 0 loadsOperand ∧
    phaseDoes (.and ind a) ind 1 (fun s t => t.AC = s.AC &&& s.DR ∧ t.E = s.E ∧ endsInstruction s t) ∧
    ∀ s : State, ∃ t, exec (.and ind a) s = .next t ∧ t.AC = s.AC &&& operand ind a s ∧
      t.DR = operand ind a s ∧ t.AR = ea ind a s ∧ t.E = s.E ∧ t.PC = s.PC ∧ endsInstruction s t

/-- R133: ADD, its word, its two phases, and its effect: AC gets the sum modulo 2^16 and E the carry of the
exact sum (D2, D7; log entries 13 and 14). -/
def Obligations.AddSumsAndCarries : Prop :=
  ∀ (ind : Bool) (a : Addr),
    wordHas (encode (.add ind a)) ind 0b001 a ∧
    phaseDoes (.add ind a) ind 0 loadsOperand ∧
    phaseDoes (.add ind a) ind 1 (fun s t =>
      t.AC.toNat = (s.AC.toNat + s.DR.toNat) % 2 ^ 16 ∧
      (t.E = true ↔ 2 ^ 16 ≤ s.AC.toNat + s.DR.toNat) ∧ endsInstruction s t) ∧
    ∀ s : State, ∃ t, exec (.add ind a) s = .next t ∧
      t.AC.toNat = (s.AC.toNat + (operand ind a s).toNat) % 2 ^ 16 ∧
      (t.E = true ↔ 2 ^ 16 ≤ s.AC.toNat + (operand ind a s).toNat) ∧
      t.DR = operand ind a s ∧ t.AR = ea ind a s ∧ t.PC = s.PC ∧ endsInstruction s t

/-- R135: LDA, its word, its two phases, and its effect (D2, D7; log entries 13 and 14). -/
def Obligations.LdaLoadsAccumulator : Prop :=
  ∀ (ind : Bool) (a : Addr),
    wordHas (encode (.lda ind a)) ind 0b010 a ∧
    phaseDoes (.lda ind a) ind 0 loadsOperand ∧
    phaseDoes (.lda ind a) ind 1 (fun s t => t.AC = s.DR ∧ t.E = s.E ∧ endsInstruction s t) ∧
    ∀ s : State, ∃ t, exec (.lda ind a) s = .next t ∧ t.AC = operand ind a s ∧ t.DR = operand ind a s ∧
      t.AR = ea ind a s ∧ t.E = s.E ∧ t.PC = s.PC ∧ endsInstruction s t

/-- R137: STA, its word, its phase, and its effect (D2, D7; log entries 13 and 14). The premise is the invariant that the
memory list is canonical. -/
def Obligations.StaStoresAccumulator : Prop :=
  ∀ (ind : Bool) (a : Addr),
    wordHas (encode (.sta ind a)) ind 0b011 a ∧
    phaseDoes (.sta ind a) ind 0 (fun s t => (s.M.wf = true → t.M.read s.AR.toNat = s.AC) ∧
      t.profiler.writes = s.profiler.writes + 1 ∧ endsInstruction s t) ∧
    ∀ s : State, s.M.wf = true → ∃ t, exec (.sta ind a) s = .next t ∧
      t.M.read (ea ind a s).toNat = s.AC ∧ t.AC = s.AC ∧ t.E = s.E ∧ t.AR = ea ind a s ∧ t.PC = s.PC ∧
      endsInstruction s t

/-- R138: BUN, its word, its phase, and its effect (D2, D7; log entries 13 and 14). -/
def Obligations.BunBranches : Prop :=
  ∀ (ind : Bool) (a : Addr),
    wordHas (encode (.bun ind a)) ind 0b100 a ∧
    phaseDoes (.bun ind a) ind 0 (fun s t => t.PC = s.AR ∧ t.E = s.E ∧ endsInstruction s t) ∧
    ∀ s : State, ∃ t, exec (.bun ind a) s = .next t ∧ t.PC = ea ind a s ∧ t.AR = ea ind a s ∧ t.E = s.E ∧
      endsInstruction s t

/-- R140: BSA stores the return address, zero-extended, at EA and continues at EA + 1 modulo 4096, leaving AR at EA
(that AR is not changed is decision D3, the zero extension D6, the phase's state D2, the pointer's bits D7; log entries
13 and 14). -/
def Obligations.BsaSavesAndBranches : Prop :=
  ∀ (ind : Bool) (a : Addr),
    wordHas (encode (.bsa ind a)) ind 0b101 a ∧
    phaseDoes (.bsa ind a) ind 0 (fun s t => t.PC = s.AR + 1 ∧ t.AR = s.AR ∧
      (s.M.wf = true → t.M.read s.AR.toNat = s.PC.setWidth 16) ∧
      t.profiler.writes = s.profiler.writes + 1 ∧ endsInstruction s t) ∧
    ∀ s : State, s.M.wf = true → ∃ t, exec (.bsa ind a) s = .next t ∧
      t.M.read (ea ind a s).toNat = s.PC.setWidth 16 ∧ t.PC.toNat = ((ea ind a s).toNat + 1) % 4096 ∧
      t.AR = ea ind a s ∧ endsInstruction s t

/-- R142 and R143: ISZ, its word, its three phases, and its law: the stored word is `(v + 1) mod 2^16`, and PC goes one
further exactly when that is 0 (D2, D7; log entries 13 and 14). -/
def Obligations.IszIncrementsAndSkips : Prop :=
  ∀ (ind : Bool) (a : Addr),
    wordHas (encode (.isz ind a)) ind 0b110 a ∧
    phaseDoes (.isz ind a) ind 0 loadsOperand ∧
    phaseDoes (.isz ind a) ind 1 (fun s t => t.DR = s.DR + 1 ∧ t.SC = s.SC + 1) ∧
    phaseDoes (.isz ind a) ind 2 (fun s t => (s.M.wf = true → t.M.read s.AR.toNat = s.DR) ∧
      skipsWhen (s.DR = 0) s t ∧ t.E = s.E ∧ t.profiler.writes = s.profiler.writes + 1 ∧ endsInstruction s t) ∧
    ∀ s : State, s.M.wf = true → ∃ t, exec (.isz ind a) s = .next t ∧
      (t.M.read (ea ind a s).toNat).toNat = ((operand ind a s).toNat + 1) % 2 ^ 16 ∧
      t.DR = t.M.read (ea ind a s).toNat ∧ skipsWhen (t.M.read (ea ind a s).toNat = 0) s t ∧
      t.AR = ea ind a s ∧ t.E = s.E ∧ endsInstruction s t

/-- What AND, ADD, LDA and BUN leave unchanged (R130; the frame is decision D8, log entry 15): all of memory, and every
register but the ones their rules name, with AR and I by T2 and the indirect state, SC and R by end_instruction. -/
def Obligations.NonStoringMemoryReferenceFrame : Prop :=
  ∀ (ind : Bool) (a : Addr) (s : State),
    (∃ t, exec (.and ind a) s = .next t ∧ keepsRegisters [.AC, .DR, .AR, .I, .SC, .R] s t ∧ keepsMemory s t ∧
      t.ERR = s.ERR ∧ t.I = ind) ∧
    (∃ t, exec (.add ind a) s = .next t ∧ keepsRegisters [.AC, .E, .DR, .AR, .I, .SC, .R] s t ∧ keepsMemory s t ∧
      t.ERR = s.ERR ∧ t.I = ind) ∧
    (∃ t, exec (.lda ind a) s = .next t ∧ keepsRegisters [.AC, .DR, .AR, .I, .SC, .R] s t ∧ keepsMemory s t ∧
      t.ERR = s.ERR ∧ t.I = ind) ∧
    (∃ t, exec (.bun ind a) s = .next t ∧ keepsRegisters [.PC, .AR, .I, .SC, .R] s t ∧ keepsMemory s t ∧
      t.ERR = s.ERR ∧ t.I = ind)

/-- What STA, BSA and ISZ leave unchanged (R130, D8): every word of memory but the one at the effective address, and
every register but the ones their rules name. -/
def Obligations.StoringMemoryReferenceFrame : Prop :=
  ∀ (ind : Bool) (a : Addr) (s : State),
    (∃ t, exec (.sta ind a) s = .next t ∧ keepsRegisters [.AR, .I, .SC, .R] s t ∧
      keepsMemoryBut (effectiveAddress ind a s) s t ∧ t.ERR = s.ERR ∧ t.I = ind) ∧
    (∃ t, exec (.bsa ind a) s = .next t ∧ keepsRegisters [.PC, .AR, .I, .SC, .R] s t ∧
      keepsMemoryBut (effectiveAddress ind a s) s t ∧ t.ERR = s.ERR ∧ t.I = ind) ∧
    (∃ t, exec (.isz ind a) s = .next t ∧ keepsRegisters [.DR, .PC, .AR, .I, .SC, .R] s t ∧
      keepsMemoryBut (effectiveAddress ind a s) s t ∧ t.ERR = s.ERR ∧ t.I = ind)

/-- R141: a subroutine called with `BSA` returns with `BUN` indirect through its first word: PC is the return address
again. -/
def Obligations.SubroutineCallReturns : Prop :=
  ∀ (ind : Bool) (a : Addr) (s : State), s.M.wf = true →
    ∃ t u, exec (.bsa ind a) s = .next t ∧ exec (.bun true (ea ind a s)) t = .next u ∧ u.PC = s.PC

/-- R134: subtraction in software, `CMA; INC; ADD`: AC becomes the operand less AC, modulo 2^16. E, the carry of the ADD,
is 1 exactly when AC was not 0 and is not above the operand. -/
def Obligations.ComplementIncrementAddSubtracts : Prop :=
  ∀ (ind : Bool) (a : Addr) (s : State), ∃ t u v,
    exec .cma s = .next t ∧ exec .inc t = .next u ∧ exec (.add ind a) u = .next v ∧
    v.AC = operand ind a s - s.AC ∧
    (v.E = true ↔ s.AC ≠ 0 ∧ s.AC.toNat ≤ (operand ind a s).toNat)

/-! ### Register-reference instructions -/

/-- R150 to R153, R156: CLA, CMA and INC write AC and leave E (INC even when AC wraps: decision D8, log entry 15); CLE and
CME write E and leave AC. -/
def Obligations.AccumulatorAndExtendOperations : Prop :=
  ∀ s : State,
    (∃ t, exec .cla s = .next t ∧ t.AC.toNat = 0 ∧ t.E = s.E ∧ endsInstruction s t) ∧
    (∃ t, exec .cma s = .next t ∧ (∀ k, k < 16 → t.AC.getLsbD k = !s.AC.getLsbD k) ∧ t.E = s.E ∧
      endsInstruction s t) ∧
    (∃ t, exec .inc s = .next t ∧ t.AC.toNat = (s.AC.toNat + 1) % 2 ^ 16 ∧ t.E = s.E ∧ endsInstruction s t) ∧
    (∃ t, exec .cle s = .next t ∧ t.E = false ∧ t.AC = s.AC ∧ endsInstruction s t) ∧
    (∃ t, exec .cme s = .next t ∧ (t.E = true ↔ s.E = false) ∧ t.AC = s.AC ∧ endsInstruction s t)

/-- R154, R155: CIR and CIL move every bit of the 17-bit ring of E and AC one place, and each undoes the other (the
reading of "through E" is decision D8, log entry 15). -/
def Obligations.CirculateMovesEveryBit : Prop :=
  ∀ s : State,
    (∃ t, exec .cir s = .next t ∧ t.E = s.AC.getLsbD 0 ∧ t.AC.getLsbD 15 = s.E ∧
      (∀ k, k < 15 → t.AC.getLsbD k = s.AC.getLsbD (k + 1)) ∧ endsInstruction s t ∧
      ∃ u, exec .cil t = .next u ∧ u.AC = s.AC ∧ u.E = s.E) ∧
    (∃ t, exec .cil s = .next t ∧ t.E = s.AC.getLsbD 15 ∧ t.AC.getLsbD 0 = s.E ∧
      (∀ k, k < 15 → t.AC.getLsbD (k + 1) = s.AC.getLsbD k) ∧ endsInstruction s t ∧
      ∃ u, exec .cir t = .next u ∧ u.AC = s.AC ∧ u.E = s.E)

/-- R162: 17 applications of CIR, or of CIL, return AC and E to their values, for every AC and E; 16 do so only when all
17 bits are equal. It replaces the source's count of 16 (90_conflicts.md C1). -/
def Obligations.SeventeenRotationsAreIdentity : Prop :=
  ∀ s : State,
    (∃ t, execTimes .cir 17 s = .next t ∧ t.AC = s.AC ∧ t.E = s.E) ∧
    (∃ t, execTimes .cil 17 s = .next t ∧ t.AC = s.AC ∧ t.E = s.E) ∧
    (∃ t, execTimes .cir 16 s = .next t ∧
      ((t.AC = s.AC ∧ t.E = s.E) ↔ (s.AC = 0x0000 ∧ s.E = false) ∨ (s.AC = 0xFFFF ∧ s.E = true))) ∧
    (∃ t, execTimes .cil 16 s = .next t ∧
      ((t.AC = s.AC ∧ t.E = s.E) ↔ (s.AC = 0x0000 ∧ s.E = false) ∨ (s.AC = 0xFFFF ∧ s.E = true)))

/-- R22: SPA skips when AC[15] is 0 (so on 0 as well), SNA when it is 1, SZA when the whole word is 0. Beside it the skip
conditions of SZE, SKI and SKO (R160, R172, R173); SKI and SKO leave their flag. A skip adds 1 to PC modulo 4096 (R163). -/
def Obligations.SkipConditions : Prop :=
  ∀ s : State,
    (∃ t, exec .spa s = .next t ∧ skipsWhen (s.AC.getLsbD 15 = false) s t ∧ endsInstruction s t) ∧
    (∃ t, exec .sna s = .next t ∧ skipsWhen (s.AC.getLsbD 15 = true) s t ∧ endsInstruction s t) ∧
    (∃ t, exec .sza s = .next t ∧ skipsWhen (s.AC = 0) s t ∧ endsInstruction s t) ∧
    (∃ t, exec .sze s = .next t ∧ skipsWhen (s.E = false) s t ∧ endsInstruction s t) ∧
    (∃ t, exec .ski s = .next t ∧ skipsWhen (s.FGI = true) s t ∧ t.FGI = s.FGI ∧ endsInstruction s t) ∧
    (∃ t, exec .sko s = .next t ∧ skipsWhen (s.FGO = true) s t ∧ t.FGO = s.FGO ∧ endsInstruction s t)

/-- R161: HLT clears S, still performs end_instruction with its request test (decision D5, log entry 11), and from then
on every step and timing state leaves the state as it is. -/
def Obligations.HltStopsTheEngine : Prop :=
  ∀ s : State, ∃ t, exec .hlt s = .next t ∧ t.S = false ∧ t.PC = s.PC ∧ endsInstruction s t ∧
    step t = .next t ∧ stepCycle t = .next t

/-- What the register-reference instructions leave unchanged (decision D8, log entry 15): all of memory, and every
register but the ones their rules name, with AR and I by T2 and SC and R by end_instruction. -/
def Obligations.RegisterReferenceFrame : Prop :=
  ∀ s : State,
    (∀ i ∈ [Instr.cla, .cma, .inc], ∃ t, exec i s = .next t ∧
      keepsRegisters [.AC, .AR, .I, .SC, .R] s t ∧ keepsMemory s t ∧ t.ERR = s.ERR ∧ t.I = false) ∧
    (∀ i ∈ [Instr.cle, .cme], ∃ t, exec i s = .next t ∧
      keepsRegisters [.E, .AR, .I, .SC, .R] s t ∧ keepsMemory s t ∧ t.ERR = s.ERR ∧ t.I = false) ∧
    (∀ i ∈ [Instr.cir, .cil], ∃ t, exec i s = .next t ∧
      keepsRegisters [.AC, .E, .AR, .I, .SC, .R] s t ∧ keepsMemory s t ∧ t.ERR = s.ERR ∧ t.I = false) ∧
    (∀ i ∈ [Instr.spa, .sna, .sza, .sze], ∃ t, exec i s = .next t ∧
      keepsRegisters [.PC, .AR, .I, .SC, .R] s t ∧ keepsMemory s t ∧ t.ERR = s.ERR ∧ t.I = false) ∧
    (∃ t, exec .hlt s = .next t ∧
      keepsRegisters [.S, .AR, .I, .SC, .R] s t ∧ keepsMemory s t ∧ t.ERR = s.ERR ∧ t.I = false)

/-! ### Input/output instructions -/

/-- R170: INP writes INPR into AC[7:0], keeps AC[15:8] (decision D8, log entry 15) and clears FGI; the request test of
its own state reads FGI before that (D5, log entry 11). -/
def Obligations.InpTakesCharacter : Prop :=
  ∀ s : State, ∃ t, exec .inp s = .next t ∧ t.AC.extractLsb' 0 8 = s.INPR ∧
    t.AC.extractLsb' 8 8 = s.AC.extractLsb' 8 8 ∧ t.FGI = false ∧ t.INPR = s.INPR ∧ endsInstruction s t

/-- R171: OUT copies AC[7:0] to OUTR, whatever FGO is, and clears FGO; the request test of its own state reads FGO before
that (D5, log entry 11). -/
def Obligations.OutGivesCharacter : Prop :=
  ∀ s : State, ∃ t, exec .out s = .next t ∧ t.OUTR.toNat = s.AC.toNat % 256 ∧ t.FGO = false ∧ t.AC = s.AC ∧
    endsInstruction s t

/-- R174, R175: ION and IOF set and clear IEN; the request test of their own state reads the old IEN (decision D5, log
entry 11). So with IEN = 0 and R = 0 no interrupt follows ION directly, and IOF does not cancel a pending request. -/
def Obligations.IonIofSwitchInterrupts : Prop :=
  ∀ s : State,
    (∃ t, exec .ion s = .next t ∧ t.IEN = true ∧ endsInstruction s t ∧
      (s.IEN = false → s.R = false → t.R = false)) ∧
    (∃ t, exec .iof s = .next t ∧ t.IEN = false ∧ endsInstruction s t ∧
      (s.IEN = true → s.FGI = true ∨ s.FGO = true → t.R = true))

/-- What the input/output instructions leave unchanged (decision D8, log entry 15). -/
def Obligations.InputOutputFrame : Prop :=
  ∀ s : State,
    (∃ t, exec .inp s = .next t ∧
      keepsRegisters [.AC, .FGI, .AR, .I, .SC, .R] s t ∧ keepsMemory s t ∧ t.ERR = s.ERR ∧ t.I = true) ∧
    (∃ t, exec .out s = .next t ∧
      keepsRegisters [.OUTR, .FGO, .AR, .I, .SC, .R] s t ∧ keepsMemory s t ∧ t.ERR = s.ERR ∧ t.I = true) ∧
    (∀ i ∈ [Instr.ski, .sko], ∃ t, exec i s = .next t ∧
      keepsRegisters [.PC, .AR, .I, .SC, .R] s t ∧ keepsMemory s t ∧ t.ERR = s.ERR ∧ t.I = true) ∧
    (∀ i ∈ [Instr.ion, .iof], ∃ t, exec i s = .next t ∧
      keepsRegisters [.IEN, .AR, .I, .SC, .R] s t ∧ keepsMemory s t ∧ t.ERR = s.ERR ∧ t.I = true)

/-! ### Errors and interrupts -/

/-- R202, R206, R207: the timing state of an illegal word sets S and SC to 0 and ERR to the word and its address, and
changes nothing else, whatever request is pending; no instruction is counted (its details are decision D9, log entry
16). `step_cycle` reports SC and S changed, no address written, and the error: what the report holds is decision D23, and
the order of its names the model's (log entry 21). -/
def Obligations.DecodeErrorStateHalts : Prop :=
  ∀ (s : State) (why : IllegalWord), s.S = true → s.R = false → s.SC = 3 → decode s.IR = .error why →
    ∃ t, stepCycle s = .next t ∧ t.S = false ∧ t.SC = 0 ∧
      t.ERR = some (.decodeError s.IR (s.PC - 1)) ∧ keepsRegisters [.S, .SC] s t ∧ keepsMemory s t ∧
      t.profiler = ⟨s.profiler.cycles + 1, s.profiler.instructions, s.profiler.reads, s.profiler.writes⟩ ∧
      stepCycleReport s = .next (t, ⟨0, [.SC, .S], [], t.ERR⟩)

/-- R202, R207: a step at an instruction boundary on an illegal word ends halted with ERR naming the word and the address
it was fetched from. Its fetch and T2 have set PC, IR, AR and I (R102 to R104); every other register and every
word of memory is as before, and no instruction is counted (D9, log entry 16). -/
def Obligations.IllegalWordHaltsPrecisely : Prop :=
  ∀ (s : State) (why : IllegalWord), readyToFetch s → decode (s.M.read s.PC.toNat) = .error why →
    ∃ t, step s = .next t ∧ endedInError t ∧ t.ERR = some (.decodeError (s.M.read s.PC.toNat) s.PC) ∧
      t.PC = s.PC + 1 ∧ t.IR = s.M.read s.PC.toNat ∧ t.AR = (s.M.read s.PC.toNat).extractLsb' 0 12 ∧
      t.I = (s.M.read s.PC.toNat).getLsbD 15 ∧ t.SC = 0 ∧ t.R = false ∧
      keepsRegisters [.S, .SC, .PC, .AR, .IR, .I] s t ∧ keepsMemory s t ∧
      t.profiler = ⟨s.profiler.cycles + 4, s.profiler.instructions, s.profiler.reads + 1, s.profiler.writes⟩

/-- R35, R211, R115, of timing states alone (a load clears R too): one sets R only as the last state of an instruction, and
only when IEN and a flag were 1 as that state began, which is decision D5 (log entry 11); one clears R only as RT2, the
state at SC = 2 by decision D4 (log entry 12). -/
def Obligations.RequestRaisedOnlyAtBoundary : Prop :=
  ∀ s t : State, stepCycle s = .next t →
    (s.R = false → t.R = true →
      t.SC = 0 ∧ 3 ≤ s.SC.toNat ∧ s.IEN = true ∧ (s.FGI = true ∨ s.FGO = true)) ∧
    (s.R = true → t.R = false → s.SC = 2 ∧ t.SC = 0 ∧ t.IEN = false)

/-- R214, R215, R216: the three interrupt-cycle states (the split and TR's part are decision D4, log entry 12; the zero
extension D6). -/
def Obligations.InterruptCycleStates : Prop :=
  ∀ s : State, s.S = true → s.R = true →
    (s.SC = 0 → ∃ t, stepCycle s = .next t ∧ t.AR = 0 ∧ t.TR = s.PC.setWidth 16 ∧ t.SC = 1 ∧
      keepsRegisters [.AR, .TR, .SC] s t ∧ keepsMemory s t) ∧
    (s.SC = 1 → ∃ t, stepCycle s = .next t ∧ (s.M.wf = true → t.M.read s.AR.toNat = s.TR) ∧ t.PC = 0 ∧ t.SC = 2 ∧
      keepsRegisters [.PC, .SC] s t ∧ keepsMemoryBut s.AR s t) ∧
    (s.SC = 2 → ∃ t, stepCycle s = .next t ∧ t.PC = s.PC + 1 ∧ t.IEN = false ∧ t.R = false ∧ t.SC = 0 ∧
      keepsRegisters [.PC, .IEN, .R, .SC] s t ∧ keepsMemory s t)

/-- R213, R217: the interrupt cycle as a whole saves the PC, zero-extended, in M[0], continues at address 1, clears IEN
and R, leaves AR = 0 and TR = the saved PC, and saves and changes nothing else. The three states, AR and TR are decision D4 (log
entry 12); that bits 15 to 12 of the saved word are 0 is decision D6 (log entry 14). -/
def Obligations.InterruptEntrySavesPc : Prop :=
  ∀ s : State, s.S = true → s.R = true → s.SC = 0 → s.M.wf = true →
    ∃ t, step s = .next t ∧ t.M.read 0 = s.PC.setWidth 16 ∧ t.PC = 1 ∧ t.IEN = false ∧ t.R = false ∧
      t.AR = 0 ∧ t.TR = s.PC.setWidth 16 ∧ t.SC = 0 ∧
      keepsRegisters [.PC, .IEN, .R, .AR, .TR, .SC] s t ∧ keepsMemoryBut 0 s t ∧ t.ERR = s.ERR ∧
      t.profiler = ⟨s.profiler.cycles + 3, s.profiler.instructions, s.profiler.reads, s.profiler.writes + 1⟩

/-- R218: `BUN 0 I`, run where M[0] is what the interrupt cycle left, restores the interrupted PC. -/
def Obligations.HandlerReturnRestoresPc : Prop :=
  ∀ s t u : State, s.S = true → s.R = true → s.SC = 0 → s.M.wf = true → step s = .next t →
    u.M.read 0 = t.M.read 0 → ∃ v, exec (.bun true 0) u = .next v ∧ v.PC = s.PC

/-- R115, R224: host input or output-ready between two timing states of an instruction, before its last one, changes
neither which state comes next nor anything it does: the two commute ("triggering FGI mid-instruction"). -/
def Obligations.HostInputWaitsForBoundary : Prop :=
  ∀ (s t : State) (b : IoByte), s.S = true → s.R = false → stepCycle s = .next t → t.SC ≠ 0 →
    stepCycle (hostInput b s) = .next (hostInput b t) ∧
    stepCycle (hostOutputReady s) = .next (hostOutputReady t)

/-! ### The whole machine -/

/-- R21, R23, R26, R27, R29, R32: which timing states write AC, DR, IR, TR, OUTR and E (that TR is written by RT0 is
decision D4, log entry 12; that others leave E alone is D8, log entry 15). -/
def Obligations.RegistersWrittenOnlyByTheirStates : Prop :=
  ∀ s t : State, stepCycle s = .next t →
    (t.IR ≠ s.IR → s.R = false ∧ s.SC = 1) ∧
    (t.TR ≠ s.TR → s.R = true ∧ s.SC = 0) ∧
    (t.AC ≠ s.AC → ∃ i, decode s.IR = .ok i ∧ 3 ≤ s.SC.toNat ∧ writesAC i = true) ∧
    (t.DR ≠ s.DR → ∃ i, decode s.IR = .ok i ∧ 3 ≤ s.SC.toNat ∧ writesDR i = true) ∧
    (t.E ≠ s.E → ∃ i, decode s.IR = .ok i ∧ 3 ≤ s.SC.toNat ∧ writesE i = true) ∧
    (t.OUTR ≠ s.OUTR → decode s.IR = .ok .out ∧ s.SC = 3) ∧
    t.INPR = s.INPR

/-- R33: S is set to 1 only by `load`; it is cleared by HLT, by the DecodeError state and at construction, and by no other
timing state; with S = 0 no timing state is performed; and no instruction reads S: with the other value there it does the
same. That S is 0 at construction is decision D11 (log entry 3), and that an illegal word halts the engine in the state
at SC = 3 is decision D9 (log entry 16). -/
def Obligations.RunFlagWriters : Prop :=
  (∀ (m : HostMove) (s t : State), m.perform s = .next t → s.S = false → t.S = true →
    ∃ program data origin, m = .load program data origin) ∧
  (∀ program data origin t, load program data origin = .ok t → t.S = true) ∧
  State.reset.S = false ∧
  (∀ s t : State, stepCycle s = .next t → s.S = true →
    (t.S = false ↔ s.R = false ∧ s.SC = 3 ∧ (decode s.IR = .ok .hlt ∨ ∃ why, decode s.IR = .error why))) ∧
  (∀ s : State, s.S = false → stepCycle s = .next s) ∧
  (∀ (i : Instr) (s t : State) (x : Bool), exec i s = .next t →
    exec i { s with S := x } = .next { t with S := if i = .hlt then false else x })

/-- R28, R34, R37, R38: who writes INPR, IEN, FGI and FGO. Only host input raises FGI and only output-ready raises FGO,
the two operations that decision D13 gives the host (log entry 18); of timing states, only INP clears FGI, only OUT clears
FGO, only ION sets IEN, and only IOF and RT2 clear it, RT2 being the interrupt-cycle state at SC = 2 by decision D4 (log
entry 12). -/
def Obligations.IoFlagWriters : Prop :=
  (∀ (m : HostMove) (s t : State), m.perform s = .next t →
    (s.FGI = false → t.FGI = true → ∃ b, m = .input b) ∧
    (s.FGO = false → t.FGO = true → m = .outputReady) ∧
    (t.INPR ≠ s.INPR → (∃ b, m = .input b) ∨ ∃ program data origin, m = .load program data origin)) ∧
  (∀ s t : State, stepCycle s = .next t →
    (s.FGI = true → t.FGI = false → decode s.IR = .ok .inp ∧ s.SC = 3) ∧
    (s.FGO = true → t.FGO = false → decode s.IR = .ok .out ∧ s.SC = 3) ∧
    (s.IEN = false → t.IEN = true → decode s.IR = .ok .ion ∧ s.SC = 3) ∧
    (s.IEN = true → t.IEN = false → (decode s.IR = .ok .iof ∧ s.SC = 3) ∨ (s.R = true ∧ s.SC = 2)))

/-- R27, R28, R29: no instruction reads TR or OUTR, and only INP reads INPR: with other values there, an instruction does
the same and leaves them. -/
def Obligations.IdleRegistersDoNotInterfere : Prop :=
  ∀ (i : Instr) (s t : State), exec i s = .next t →
    (∀ x : Word, exec i { s with TR := x } = .next { t with TR := x }) ∧
    (∀ x : IoByte, i ≠ .inp → exec i { s with INPR := x } = .next { t with INPR := x }) ∧
    (∀ x : IoByte, exec i { s with OUTR := x } = .next (if i = .out then t else { t with OUTR := x }))

/-- R65, R62: a fetch gets the word that STA, BSA, ISZ or the interrupt cycle stored at its address (decision D21). The
fetch may be the very next instruction's, which after STA and ISZ can be from the address just stored to, or a later one
from the same memory. With IEN = 0 no interrupt cycle comes between; where one does, the handler's first fetch sees a
store to address 1.
The stored PC of BSA and of the interrupt cycle is zero-extended by decision D6, and the pointer's bits are D7 (log entry
14). -/
def Obligations.FetchSeesPrecedingStore : Prop :=
  (∀ (ind : Bool) (a : Addr) (s : State), s.M.wf = true →
    (∃ t, exec (.sta ind a) s = .next t ∧ storeIsFetched t (ea ind a s) s.AC ∧
      (s.S = true → s.R = false → s.IEN = false → s.PC = ea ind a s → fetches t s.AC)) ∧
    (∃ t, exec (.bsa ind a) s = .next t ∧ storeIsFetched t (ea ind a s) (s.PC.setWidth 16)) ∧
    (∃ t, exec (.isz ind a) s = .next t ∧ storeIsFetched t (ea ind a s) (operand ind a s + 1) ∧
      (s.S = true → s.R = false → s.IEN = false → t.PC = ea ind a s → fetches t (operand ind a s + 1)))) ∧
  ∀ s : State, s.M.wf = true → s.S = true → s.R = true → s.SC = 0 →
    ∃ t, step s = .next t ∧ storeIsFetched t 0 (s.PC.setWidth 16)

/-! ### The invariant -/

/-- R41: the invariant holds at construction. -/
def Obligations.ResetMeetsTheInvariant : Prop := State.reset.Inv

/-- R41, R31: from every state that meets the invariant one timing state gives a next state that meets it; no fault is
raised, so SC 7 to 15 are never reached. -/
def Obligations.TimingStateKeepsTheInvariant : Prop :=
  ∀ s : State, s.Inv → ∃ t, stepCycle s = .next t ∧ t.Inv

/-- R41: every step from a state that meets the invariant gives a state that meets it. -/
def Obligations.StepKeepsTheInvariant : Prop :=
  ∀ s t : State, s.Inv → step s = .next t → t.Inv

/-- R41, R224, R236: every move a host has answers a next state and keeps the invariant: no move faults. -/
def Obligations.HostMovesKeepTheInvariant : Prop :=
  ∀ (m : HostMove) (s : State), s.Inv → ∃ t, m.perform s = .next t ∧ t.Inv

/-- R31: a running engine whose SC is 7 to 15 names no timing state; the model faults and does not pick a behaviour
(decision D28, log entry 7). -/
def Obligations.NoStatePastTheLast : Prop :=
  ∀ s : State, s.S = true → 7 ≤ s.SC.toNat →
    stepCycle s = .fault (.noTimingState s.SC) ∧ step s = .fault (.noTimingState s.SC)

/-! ### Construction, load and the host -/

/-- R250: at construction every register and flag is 0, every memory word is 0, ERR is none and the counters are 0
(decision D11, log entry 3). -/
def Obligations.ConstructionIsAllZero : Prop :=
  (∀ r : RegName, r.value State.reset = 0) ∧ (∀ a : Nat, State.reset.M.read a = 0) ∧
  State.reset.ERR = none ∧ State.reset.profiler = ⟨0, 0, 0, 0⟩

/-- R253, R205: `load` fails exactly when one of the four checks fails, and a failed load leaves the engine as it was
(decision D12, log entry 17). -/
def Obligations.LoadFailsExactlyOnBadImages : Prop :=
  ∀ (program : List Nat) (data : List (Nat × Nat)) (origin : Nat) (s : State),
    ((∃ reason, load program data origin = .error (.loadError reason)) ↔
      (origin > 0xFFF ∨ origin + program.length > 4096 ∨ (∃ p ∈ data, p.1 > 0xFFF) ∨
        (∃ w ∈ program, w ≥ 0x10000) ∨ ∃ p ∈ data, p.2 ≥ 0x10000)) ∧
    (∀ e, load program data origin = .error e → (HostMove.load program data origin).perform s = .next s)

/-- R252, R255: a load that succeeds leaves PC at the origin, S = 1, every other register and flag 0, ERR none, the
counters 0, and memory the image over zeros: the last data pair for an address, else the program's word, else 0
(decision D12, log entry 17). -/
def Obligations.LoadLeavesTheImage : Prop :=
  ∀ (program : List Nat) (data : List (Nat × Nat)) (origin : Nat) (t : State),
    load program data origin = .ok t →
    t.PC.toNat = origin ∧ t.S = true ∧ (∀ r : RegName, r ≠ .PC → r ≠ .S → r.value t = 0) ∧ t.ERR = none ∧
    t.profiler = ⟨0, 0, 0, 0⟩ ∧ t.M.wf = true ∧
    ∀ a : Nat, a < 4096 →
      (t.M.read a).toNat =
        match data.reverse.find? (fun p => p.1 == a) with
        | some p => p.2
        | none => if origin ≤ a then program.getD (a - origin) 0 else 0

/-- R222, R223: host input and output-ready write INPR and FGI, and FGO, and nothing else; no event is counted
(decision D13, log entry 18). -/
def Obligations.HostInputAndOutputReady : Prop :=
  ∀ (s : State) (b : IoByte),
    ((hostInput b s).INPR = b ∧ (hostInput b s).FGI = true ∧ keepsRegisters [.INPR, .FGI] s (hostInput b s) ∧
      (hostInput b s).M = s.M ∧ (hostInput b s).ERR = s.ERR ∧ (hostInput b s).profiler = s.profiler) ∧
    ((hostOutputReady s).FGO = true ∧ keepsRegisters [.FGO] s (hostOutputReady s) ∧
      (hostOutputReady s).M = s.M ∧ (hostOutputReady s).ERR = s.ERR ∧ (hostOutputReady s).profiler = s.profiler)

/-- R45, R67, R231: `read_register` answers exactly the 16 names, each with its own register or flag zero-extended to 16
bits, and fails with UnknownRegister on every other (decision D31); `read_memory` fails exactly when address + count > 4096
and otherwise returns the words in order (D17, D19; 90_conflicts.md C2); the snapshot's `cpi` is the exact quotient,
undefined with no instruction completed (D18). Log entries 20 and 22. -/
def Obligations.ObserversAnswer : Prop :=
  (∀ (r : RegName) (s : State), readRegister r.spelling s = .ok (r.value s)) ∧
  (∀ s : State,
    readRegister "AC" s = .ok s.AC ∧ readRegister "DR" s = .ok s.DR ∧
    readRegister "AR" s = .ok (s.AR.setWidth 16) ∧ readRegister "PC" s = .ok (s.PC.setWidth 16) ∧
    readRegister "IR" s = .ok s.IR ∧ readRegister "TR" s = .ok s.TR ∧
    readRegister "OUTR" s = .ok (s.OUTR.setWidth 16) ∧ readRegister "INPR" s = .ok (s.INPR.setWidth 16) ∧
    readRegister "SC" s = .ok (s.SC.setWidth 16) ∧ readRegister "E" s = .ok (if s.E then 1 else 0) ∧
    readRegister "S" s = .ok (if s.S then 1 else 0) ∧ readRegister "IEN" s = .ok (if s.IEN then 1 else 0) ∧
    readRegister "R" s = .ok (if s.R then 1 else 0) ∧ readRegister "FGI" s = .ok (if s.FGI then 1 else 0) ∧
    readRegister "FGO" s = .ok (if s.FGO then 1 else 0) ∧ readRegister "I" s = .ok (if s.I then 1 else 0)) ∧
  (∀ (name : String) (s : State),
    name ∉ ["AC", "DR", "AR", "PC", "IR", "TR", "OUTR", "INPR", "SC", "E", "S", "IEN", "R", "FGI", "FGO", "I"] →
    readRegister name s = .error (.unknownRegister name)) ∧
  (∀ (address count : Nat) (s : State),
    (4096 < address + count → readMemory address count s = .error (.addressOutOfRange address count)) ∧
    (address + count ≤ 4096 → ∃ words, readMemory address count s = .ok words ∧ words.length = count ∧
      ∀ k, k < count → words[k]? = some (s.M.read (address + k)))) ∧
  (∀ s : State,
    (s.profiler.instructions = 0 → (profilerSnapshot s).cpi = none) ∧
    (s.profiler.instructions ≠ 0 → ∃ q : Rat, (profilerSnapshot s).cpi = some q ∧
      q * (s.profiler.instructions : Rat) = (s.profiler.cycles : Rat)))

/-- R53, R54: the memory bank's own read and write fail above 0xFFF and otherwise read and set M[address]. R52, R203: an
engine access is one the bank accepts, with the bank's result (decision D30, log entry 24). -/
def Obligations.MemoryBankContract : Prop :=
  (∀ (m : Memory) (address : Nat) (v : Word),
    ((∃ e, m.bankRead address = .error e) ↔ address > 0xFFF) ∧
    (address ≤ 0xFFF → m.bankRead address = .ok (m.read address)) ∧
    ((∃ e, m.bankWrite address v = .error e) ↔ address > 0xFFF) ∧
    (address ≤ 0xFFF → m.wf = true → ∃ m', m.bankWrite address v = .ok m' ∧ m'.wf = true ∧ m'.read address = v ∧
      ∀ b, b ≠ address → m'.read b = m.read b)) ∧
  ∀ (s : State) (a : Addr) (v : Word),
    s.M.bankRead a.toNat = .ok (s.word a) ∧ s.M.bankWrite a.toNat v = .ok (State.memWrite a v s).M

/-- R230, R231: the counters after a timing state are the counters before it with the events of R58 and R230 counted,
one by one. -/
def Obligations.CountersCountTheEvents : Prop :=
  ∀ s t : State, stepCycle s = .next t →
    t.profiler = (cycleEvents s).foldl (fun p e => p.count e) s.profiler

/-- R232: the report of a timing state is true: the new SC; exactly the registers whose value changed; the address written,
which is AR in the storing phase of STA, BSA or ISZ and in RT1, and none in any other state; and the error exactly when the
state is the DecodeError state (decision D23, log entry 21). No word but the reported one changes; the reported one may keep
its value, if the same word was stored. -/
def Obligations.CycleReportIsTrue : Prop :=
  ∀ (s t : State) (report : CycleReport), stepCycleReport s = .next (t, report) →
    stepCycle s = .next t ∧ report.sc = t.SC ∧
    (∀ r : RegName, r ∈ report.changed ↔ r.value s ≠ r.value t) ∧
    (∀ a : Nat, t.M.read a ≠ s.M.read a → ∃ w ∈ report.written, w.toNat = a) ∧
    report.written.length ≤ 1 ∧
    (storesNow s → report.written = [s.AR] ∧ keepsMemoryBut s.AR s t) ∧
    (¬ storesNow s → report.written = [] ∧ keepsMemory s t) ∧
    (report.error = some (.decodeError s.IR (s.PC - 1)) ↔
      s.S = true ∧ s.R = false ∧ s.SC = 3 ∧ ∃ why, decode s.IR = .error why) ∧
    (report.error = none ∨ report.error = some (.decodeError s.IR (s.PC - 1)))

/-- R233: `run` is the loop of the rule. It makes no call on a halted engine or with the limit used up; else it makes one
call of `step_instruction` and goes on with one less, faults included. So it makes some number of calls up to the limit,
each on a running engine, and stops only halted or at the limit. It returns the number of instructions completed, and the
error if this call halted the engine on one (that an earlier error is not returned again is log entry 26). A longer run goes
on from a shorter one. The unlimited run returns exactly the halted state some number of calls leads to, and only one. The
unit of the limit is decision D16 (log entry 19). -/
def Obligations.RunRepeatsSteps : Prop :=
  (∀ s : State, runLimited 0 s = .next s) ∧
  (∀ (n : Nat) (s : State), s.S = false → runLimited n s = .next s) ∧
  (∀ (n : Nat) (s : State), s.S = true → runLimited (n + 1) s = andThen (step s) (runLimited n)) ∧
  (∀ (limit : Nat) (s t : State), runLimited limit s = .next t → ∃ report, run limit s = .next (t, report)) ∧
  (∀ (limit : Nat) (s : State) (f : Fault), runLimited limit s = .fault f → run limit s = .fault f) ∧
  (∀ (limit : Nat) (s t : State) (report : RunReport), run limit s = .next (t, report) →
    runLimited limit s = .next t ∧
    (∃ calls, calls ≤ limit ∧ stepsTo calls s t ∧ (t.S = false ∨ calls = limit)) ∧
    report.completed ≤ limit ∧ t.profiler.instructions = s.profiler.instructions + report.completed ∧
    (s.S = true → t.S = false → report.error = t.ERR) ∧
    (s.S = false ∨ t.S = true → report.error = none)) ∧
  (∀ (m n : Nat) (s t : State), runLimited m s = .next t → runLimited (m + n) s = runLimited n t) ∧
  (∀ s t : State, RunReturns s t ↔ t.S = false ∧ ∃ calls, stepsTo calls s t) ∧
  (∀ s t u : State, RunReturns s t → RunReturns s u → t = u)

/-! ### Program order -/

/-- R114: the next instruction is the one at the address PC holds at the instruction boundary, which T0 and T1 fetch and
step past. A timing state changes PC only as T1, in the execution of BUN, BSA or a skip (ISZ, SPA, SNA, SZA, SZE, SKI,
SKO), or in the interrupt cycle; so control leaves sequence in no other way. -/
def Obligations.ControlLeavesSequenceOnlyThere : Prop :=
  (∀ s : State, readyToFetch s → ∃ t u, stepCycle s = .next t ∧ stepCycle t = .next u ∧
    u.IR = s.M.read s.PC.toNat ∧ u.PC.toNat = (s.PC.toNat + 1) % 4096) ∧
  (∀ s t : State, stepCycle s = .next t → t.PC ≠ s.PC →
    (s.R = false ∧ s.SC = 1 ∧ t.PC = s.PC + 1) ∨
    s.R = true ∨
    ∃ i, decode s.IR = .ok i ∧ 3 ≤ s.SC.toNat ∧ leavesSequence i = true)
end

