-- ==== Sys2Proof/Laws/Encoding.lean ====
section
/-! SUPPORT. The fields of an encoded word (30_encoding.md rule R71): the lemmas about `instructionWord` and the three
field readers that decoding, T2 and the encoder's laws rest on. -/

namespace Sys2Proof

/-- Every bit of an instruction word: bit 15 is I, bits 14 to 12 the opcode, bits 11 to 0 the field (R71). -/
theorem getLsbD_instructionWord (ind : Bool) (op : BitVec 3) (a : Addr) (k : Nat) :
    (instructionWord ind op a).getLsbD k =
      if k = 15 then ind else if k < 12 then a.getLsbD k else op.getLsbD (k - 12) := by
  have h : (instructionWord ind op a).getLsbD k
      = (BitVec.cons ind ((op ++ a : BitVec (3 + 12))) : BitVec (3 + 12 + 1)).getLsbD k := rfl
  rw [h, BitVec.getLsbD_cons, BitVec.getLsbD_append]

theorem getLsbD_opcodeField (w : Word) (k : Nat) : (opcodeField w).getLsbD k = (decide (k < 3) && w.getLsbD (12 + k)) := by
  unfold opcodeField
  rw [BitVec.getLsbD_extractLsb']

theorem getLsbD_addressField (w : Word) (k : Nat) : (addressField w).getLsbD k = (decide (k < 12) && w.getLsbD k) := by
  unfold addressField
  rw [BitVec.getLsbD_extractLsb', Nat.zero_add]

@[simp] theorem indirectBit_instructionWord (ind : Bool) (op : BitVec 3) (a : Addr) :
    indirectBit (instructionWord ind op a) = ind := by
  unfold indirectBit
  rw [getLsbD_instructionWord, if_pos rfl]

@[simp] theorem opcodeField_instructionWord (ind : Bool) (op : BitVec 3) (a : Addr) :
    opcodeField (instructionWord ind op a) = op := by
  apply BitVec.eq_of_getLsbD_eq
  intro k hk
  rw [getLsbD_opcodeField, getLsbD_instructionWord, if_neg (by omega), if_neg (by omega), Nat.add_sub_cancel_left,
    decide_eq_true hk, Bool.true_and]

@[simp] theorem addressField_instructionWord (ind : Bool) (op : BitVec 3) (a : Addr) :
    addressField (instructionWord ind op a) = a := by
  apply BitVec.eq_of_getLsbD_eq
  intro k hk
  rw [getLsbD_addressField, getLsbD_instructionWord, if_neg (by omega), if_pos hk, decide_eq_true hk, Bool.true_and]

/-- A word is its three fields put together (R71: every instruction word has the same three fields). -/
theorem instructionWord_fields (w : Word) :
    instructionWord (indirectBit w) (opcodeField w) (addressField w) = w := by
  apply BitVec.eq_of_getLsbD_eq
  intro k hk
  rw [getLsbD_instructionWord, getLsbD_opcodeField, getLsbD_addressField]
  split
  next h => rw [h]; rfl
  next h =>
    split
    next h12 => rw [decide_eq_true h12, Bool.true_and]
    next h12 =>
      rw [decide_eq_true (by omega : k - 12 < 3), Bool.true_and, show 12 + (k - 12) = k by omega]

/-- The low 12 bits of a PC stored as a word are that PC (R140, R214 with R107). -/
@[simp] theorem addressField_setWidth (a : Addr) : addressField (a.setWidth 16) = a := by
  apply BitVec.eq_of_getLsbD_eq
  intro k hk
  rw [getLsbD_addressField, BitVec.getLsbD_setWidth, decide_eq_true hk, decide_eq_true (by omega : k < 16),
    Bool.true_and, Bool.true_and]

end Sys2Proof
end

