-- ==== Sys2Proof/Laws/Memory.lean ====
section
/-! SUPPORT. The laws of the memory bank: reading after writing, and that every memory operation keeps the canonical
form. -/

namespace Sys2Proof.Machine

@[simp] theorem Memory.read_nil (a : Nat) : Memory.read [] a = 0#16 := rfl

theorem Memory.read_cons (k : Nat) (w : Word) (rest : Memory) (a : Nat) :
    Memory.read ((k, w) :: rest) a = if k = a then w else Memory.read rest a := rfl

/-- The canonical form of a list with a first cell, as facts. -/
theorem Memory.wf_cons (k : Nat) (w : Word) (rest : Memory) :
    Memory.wf ((k, w) :: rest) = true ↔
      k < Config.memWords ∧ w ≠ 0#16 ∧ (∀ c ∈ rest, k < c.1) ∧ Memory.wf rest = true := by
  simp [Memory.wf, and_assoc]

/-- An address below every listed one reads as 0. -/
theorem Memory.read_eq_zero_of_lt {m : Memory} {a : Nat} (h : ∀ c ∈ m, a < c.1) : m.read a = 0#16 := by
  induction m with
  | nil => rfl
  | cons c rest ih =>
    obtain ⟨k, w⟩ := c
    have hk : a < k := h (k, w) (by simp)
    have hne : k ≠ a := by omega
    rw [Memory.read_cons, if_neg hne]
    exact ih fun c hc => h c (by simp [hc])

/-- Addresses past the bank read as 0 in a canonical memory. -/
theorem Memory.read_out_of_range {m : Memory} (hm : m.wf = true) {a : Nat} (ha : Config.memWords ≤ a) :
    m.read a = 0#16 := by
  induction m with
  | nil => rfl
  | cons c rest ih =>
    obtain ⟨k, w⟩ := c
    obtain ⟨hk, -, -, hr⟩ := (Memory.wf_cons k w rest).1 hm
    have hne : k ≠ a := by omega
    rw [Memory.read_cons, if_neg hne, ih hr]

/-- Every cell of `m.set a v` is the written one or a cell of `m`. -/
theorem Memory.mem_set {m : Memory} {a : Nat} {v : Word} {c : Nat × Word} (h : c ∈ m.set a v) :
    c.1 = a ∨ c ∈ m := by
  induction m with
  | nil =>
    by_cases hv : v = 0#16 <;> simp_all [Memory.set]
  | cons d rest ih =>
    obtain ⟨k, w⟩ := d
    simp only [Memory.set] at h
    split at h
    · split at h
      · exact .inr h
      · rcases List.mem_cons.1 h with rfl | h
        · exact .inl rfl
        · exact .inr h
    · split at h
      · split at h
        · exact .inr (List.mem_cons_of_mem _ h)
        · rcases List.mem_cons.1 h with rfl | h
          · exact .inl rfl
          · exact .inr (List.mem_cons_of_mem _ h)
      · rcases List.mem_cons.1 h with rfl | h
        · exact .inr (by simp)
        · rcases ih h with h | h
          · exact .inl h
          · exact .inr (List.mem_cons_of_mem _ h)

/-- A write in range keeps the canonical form. -/
theorem Memory.wf_set {m : Memory} (hm : m.wf = true) {a : Nat} (ha : a < Config.memWords) (v : Word) :
    (m.set a v).wf = true := by
  induction m with
  | nil =>
    by_cases hv : v = 0#16
    · simp [Memory.set, hv, Memory.wf]
    · simp [Memory.set, hv, Memory.wf, ha]
  | cons c rest ih =>
    obtain ⟨k, w⟩ := c
    obtain ⟨hk, hw, hlt, hr⟩ := (Memory.wf_cons k w rest).1 hm
    simp only [Memory.set]
    split
    next hak =>
      split
      · exact hm
      next hv =>
        refine (Memory.wf_cons _ _ _).2 ⟨ha, hv, ?_, hm⟩
        intro c hc
        rcases List.mem_cons.1 hc with rfl | hc
        · exact hak
        · exact lt_trans hak (hlt c hc)
    next hak =>
      split
      next hka =>
        split
        · exact hr
        next hv => exact (Memory.wf_cons _ _ _).2 ⟨ha, hv, hka ▸ hlt, hr⟩
      next hka =>
        refine (Memory.wf_cons _ _ _).2 ⟨hk, hw, ?_, ih hr⟩
        intro c hc
        rcases Memory.mem_set hc with h | h
        · omega
        · exact hlt c h

/-- A read after a write to the same address gives the value written. -/
theorem Memory.read_set_same {m : Memory} (hm : m.wf = true) (a : Nat) (v : Word) :
    (m.set a v).read a = v := by
  induction m with
  | nil =>
    by_cases hv : v = 0#16
    · simp [Memory.set, hv]
    · simp [Memory.set, hv, Memory.read_cons]
  | cons c rest ih =>
    obtain ⟨k, w⟩ := c
    obtain ⟨-, -, hlt, hr⟩ := (Memory.wf_cons k w rest).1 hm
    simp only [Memory.set]
    split
    next hak =>
      split
      next hv =>
        rw [hv]
        refine Memory.read_eq_zero_of_lt fun c hc => ?_
        rcases List.mem_cons.1 hc with rfl | hc
        · exact hak
        · exact lt_trans hak (hlt c hc)
      · simp [Memory.read_cons]
    next hak =>
      split
      next hka =>
        split
        next hv =>
          rw [hv]
          exact Memory.read_eq_zero_of_lt fun c hc => hka ▸ hlt c hc
        · simp [Memory.read_cons]
      next hka =>
        have hne : k ≠ a := fun h => hka h.symm
        rw [Memory.read_cons, if_neg hne, ih hr]

/-- A write leaves every other address alone. -/
theorem Memory.read_set_other (m : Memory) {a b : Nat} (v : Word) (hab : b ≠ a) :
    (m.set a v).read b = m.read b := by
  have hba : a ≠ b := fun h => hab h.symm
  induction m with
  | nil => by_cases hv : v = 0#16 <;> simp [Memory.set, hv, Memory.read_cons, hba]
  | cons c rest ih =>
    obtain ⟨k, w⟩ := c
    simp only [Memory.set]
    split
    · split
      · rfl
      · rw [Memory.read_cons, if_neg hba]
    · split
      next hka =>
        have hkb : k ≠ b := hka ▸ hba
        split
        · rw [Memory.read_cons, if_neg hkb]
        · rw [Memory.read_cons, if_neg hba, Memory.read_cons, if_neg hkb]
      · rw [Memory.read_cons, Memory.read_cons, ih]

/-- A read after a write, in one statement. -/
theorem Memory.read_set {m : Memory} (hm : m.wf = true) (a b : Nat) (v : Word) :
    (m.set a v).read b = if b = a then v else m.read b := by
  split
  next h => rw [h, Memory.read_set_same hm]
  next h => exact Memory.read_set_other m v h

/-- Canonical memories that read alike are equal lists. -/
theorem Memory.ext_read {m n : Memory} (hm : m.wf = true) (hn : n.wf = true)
    (h : ∀ a, m.read a = n.read a) : m = n := by
  induction m generalizing n with
  | nil =>
    cases n with
    | nil => rfl
    | cons d rest =>
      obtain ⟨k, w⟩ := d
      obtain ⟨-, hw, -, -⟩ := (Memory.wf_cons k w rest).1 hn
      have := h k
      simp [Memory.read_cons] at this
      exact absurd this.symm hw
  | cons c rest ih =>
    obtain ⟨k, w⟩ := c
    obtain ⟨-, hw, hlt, hr⟩ := (Memory.wf_cons k w rest).1 hm
    cases n with
    | nil =>
      have := h k
      simp [Memory.read_cons] at this
      exact absurd this hw
    | cons d rest' =>
      obtain ⟨k', w'⟩ := d
      obtain ⟨-, hw', hlt', hr'⟩ := (Memory.wf_cons k' w' rest').1 hn
      have hk : k = k' := by
        rcases lt_trichotomy k k' with hkk | hkk | hkk
        · have h1 := h k
          rw [Memory.read_cons, if_pos rfl, Memory.read_eq_zero_of_lt] at h1
          · exact absurd h1 hw
          · intro c hc
            rcases List.mem_cons.1 hc with rfl | hc
            · exact hkk
            · exact lt_trans hkk (hlt' c hc)
        · exact hkk
        · have h1 := h k'
          rw [Memory.read_cons k' w', if_pos rfl, Memory.read_eq_zero_of_lt] at h1
          · exact absurd h1.symm hw'
          · intro c hc
            rcases List.mem_cons.1 hc with rfl | hc
            · exact hkk
            · exact lt_trans hkk (hlt c hc)
      subst hk
      have hww : w = w' := by simpa [Memory.read_cons] using h k
      subst hww
      congr 1
      refine ih hr hr' fun a => ?_
      by_cases hka : k = a
      · subst hka
        rw [Memory.read_eq_zero_of_lt hlt, Memory.read_eq_zero_of_lt hlt']
      · have := h a
        rwa [Memory.read_cons, if_neg hka, Memory.read_cons, if_neg hka] at this

/-- A 12-bit address is in range (R52). -/
theorem Addr.toNat_lt_memWords (a : Addr) : a.toNat < Config.memWords := a.isLt

/-- An engine write keeps the canonical form. -/
theorem Memory.wf_set_addr {m : Memory} (hm : m.wf = true) (a : Addr) (v : Word) :
    (m.set a.toNat v).wf = true := Memory.wf_set hm (Addr.toNat_lt_memWords a) v

/-- The bank's write keeps the canonical form (R54). -/
theorem Memory.wf_bankWrite {m m' : Memory} (hm : m.wf = true) {a : Nat} {v : Word}
    (h : m.bankWrite a v = .ok m') : m'.wf = true := by
  unfold Memory.bankWrite at h
  split at h
  next ha =>
    cases h
    exact Memory.wf_set hm ha v
  · cases h

/-- Placing program words that fit keeps the canonical form. -/
theorem placeProgram_wf {m : Memory} (hm : m.wf = true) {a : Nat} {words : List Nat}
    (h : a + words.length ≤ Config.memWords) : (placeProgram m a words).wf = true := by
  induction words generalizing m a with
  | nil => exact hm
  | cons w rest ih =>
    simp only [List.length_cons] at h
    exact ih (Memory.wf_set hm (by omega) _) (by omega)

/-- Placing data words at addresses in range keeps the canonical form. -/
theorem placeData_wf {m : Memory} (hm : m.wf = true) {data : List (Nat × Nat)}
    (h : ∀ p ∈ data, p.1 < Config.memWords) : (placeData m data).wf = true := by
  induction data generalizing m with
  | nil => exact hm
  | cons p rest ih =>
    obtain ⟨a, w⟩ := p
    exact ih (Memory.wf_set hm (h (a, w) (by simp)) _) fun q hq => h q (by simp [hq])

/-- The memory at construction is canonical. -/
theorem State.reset_memory_wf : State.reset.M.wf = true := rfl

/-- Placing the next instruction keeps the canonical form. -/
theorem State.placeNext_memory_wf {s : State} (hs : s.M.wf = true) (w : Word) : (State.placeNext w s).M.wf = true :=
  Memory.wf_set_addr hs s.PC w

end Sys2Proof.Machine
end

