-- ==== Sys2Proof/Laws/PerInstr.lean ====
section
/-! SUPPORT. The per-instruction family `EncodeFields`: the three fields of each instruction's word (30_encoding.md rules
R71 to R77), which T2 latches and the decoder reads. -/

namespace Sys2Proof.Laws.EncodeFields

/-- The opcode of an instruction: the table of R73 for the memory-reference ones, 7 for the others (R72). -/
def opcode : Instr → BitVec 3
  | .and _ _ => 0
  | .add _ _ => 1
  | .lda _ _ => 2
  | .sta _ _ => 3
  | .bun _ _ => 4
  | .bsa _ _ => 5
  | .isz _ _ => 6
  | .cla | .cle | .cma | .cme | .cir | .cil | .inc | .spa | .sna | .sza | .sze | .hlt
  | .inp | .out | .ski | .sko | .ion | .iof => 7

/-- Bit 15: the indirect bit of a memory-reference instruction; 0 for register-reference, 1 for input/output (R72). -/
def indirect : Instr → Bool
  | .and ind _ | .add ind _ | .lda ind _ | .sta ind _ | .bun ind _ | .bsa ind _ | .isz ind _ => ind
  | .cla | .cle | .cma | .cme | .cir | .cil | .inc | .spa | .sna | .sza | .sze | .hlt => false
  | .inp | .out | .ski | .sko | .ion | .iof => true

/-- Bits 11 to 0: the address, or 2 to the selector bit (R74, R76, R77). -/
def field : Instr → Addr
  | .and _ a | .add _ a | .lda _ a | .sta _ a | .bun _ a | .bsa _ a | .isz _ a => a
  | .cla | .inp => BitVec.twoPow 12 11
  | .cle | .out => BitVec.twoPow 12 10
  | .cma | .ski => BitVec.twoPow 12 9
  | .cme | .sko => BitVec.twoPow 12 8
  | .cir | .ion => BitVec.twoPow 12 7
  | .cil | .iof => BitVec.twoPow 12 6
  | .inc => BitVec.twoPow 12 5
  | .spa => BitVec.twoPow 12 4
  | .sna => BitVec.twoPow 12 3
  | .sza => BitVec.twoPow 12 2
  | .sze => BitVec.twoPow 12 1
  | .hlt => BitVec.twoPow 12 0

/-- The word of `i` has the opcode, the bit 15 and the field of `i`. -/
def Statement (i : Instr) : Prop :=
  opcodeField (encode i) = opcode i ∧ indirectBit (encode i) = indirect i ∧ addressField (encode i) = field i

theorem and (ind : Bool) (a : Addr) : Statement (.and ind a) := by
  simp [Statement, encode, opcode, indirect, field]

theorem add (ind : Bool) (a : Addr) : Statement (.add ind a) := by
  simp [Statement, encode, opcode, indirect, field]

theorem lda (ind : Bool) (a : Addr) : Statement (.lda ind a) := by
  simp [Statement, encode, opcode, indirect, field]

theorem sta (ind : Bool) (a : Addr) : Statement (.sta ind a) := by
  simp [Statement, encode, opcode, indirect, field]

theorem bun (ind : Bool) (a : Addr) : Statement (.bun ind a) := by
  simp [Statement, encode, opcode, indirect, field]

theorem bsa (ind : Bool) (a : Addr) : Statement (.bsa ind a) := by
  simp [Statement, encode, opcode, indirect, field]

theorem isz (ind : Bool) (a : Addr) : Statement (.isz ind a) := by
  simp [Statement, encode, opcode, indirect, field]

theorem cla : Statement .cla := by unfold Statement; decide

theorem cle : Statement .cle := by unfold Statement; decide

theorem cma : Statement .cma := by unfold Statement; decide

theorem cme : Statement .cme := by unfold Statement; decide

theorem cir : Statement .cir := by unfold Statement; decide

theorem cil : Statement .cil := by unfold Statement; decide

theorem inc : Statement .inc := by unfold Statement; decide

theorem spa : Statement .spa := by unfold Statement; decide

theorem sna : Statement .sna := by unfold Statement; decide

theorem sza : Statement .sza := by unfold Statement; decide

theorem sze : Statement .sze := by unfold Statement; decide

theorem hlt : Statement .hlt := by unfold Statement; decide

theorem inp : Statement .inp := by unfold Statement; decide

theorem out : Statement .out := by unfold Statement; decide

theorem ski : Statement .ski := by unfold Statement; decide

theorem sko : Statement .sko := by unfold Statement; decide

theorem ion : Statement .ion := by unfold Statement; decide

theorem iof : Statement .iof := by unfold Statement; decide

end Sys2Proof.Laws.EncodeFields
end

