-- ==== Sys2Proof/Laws/State.lean ====
section
/-! SUPPORT. What each named update of the state leaves in each field, one lemma per field per update, true by
unfolding once: no later proof unfolds a record update. -/

namespace Sys2Proof.Machine

/-! ### `emit` -/

@[simp] theorem State.emit_AC (e : Event) (s : State) : (State.emit e s).AC = s.AC := rfl
@[simp] theorem State.emit_DR (e : Event) (s : State) : (State.emit e s).DR = s.DR := rfl
@[simp] theorem State.emit_AR (e : Event) (s : State) : (State.emit e s).AR = s.AR := rfl
@[simp] theorem State.emit_PC (e : Event) (s : State) : (State.emit e s).PC = s.PC := rfl
@[simp] theorem State.emit_IR (e : Event) (s : State) : (State.emit e s).IR = s.IR := rfl
@[simp] theorem State.emit_TR (e : Event) (s : State) : (State.emit e s).TR = s.TR := rfl
@[simp] theorem State.emit_OUTR (e : Event) (s : State) : (State.emit e s).OUTR = s.OUTR := rfl
@[simp] theorem State.emit_INPR (e : Event) (s : State) : (State.emit e s).INPR = s.INPR := rfl
@[simp] theorem State.emit_SC (e : Event) (s : State) : (State.emit e s).SC = s.SC := rfl
@[simp] theorem State.emit_E (e : Event) (s : State) : (State.emit e s).E = s.E := rfl
@[simp] theorem State.emit_S (e : Event) (s : State) : (State.emit e s).S = s.S := rfl
@[simp] theorem State.emit_IEN (e : Event) (s : State) : (State.emit e s).IEN = s.IEN := rfl
@[simp] theorem State.emit_R (e : Event) (s : State) : (State.emit e s).R = s.R := rfl
@[simp] theorem State.emit_FGI (e : Event) (s : State) : (State.emit e s).FGI = s.FGI := rfl
@[simp] theorem State.emit_FGO (e : Event) (s : State) : (State.emit e s).FGO = s.FGO := rfl
@[simp] theorem State.emit_I (e : Event) (s : State) : (State.emit e s).I = s.I := rfl
@[simp] theorem State.emit_M (e : Event) (s : State) : (State.emit e s).M = s.M := rfl
@[simp] theorem State.emit_ERR (e : Event) (s : State) : (State.emit e s).ERR = s.ERR := rfl
@[simp] theorem State.emit_profiler (e : Event) (s : State) : (State.emit e s).profiler = s.profiler.count e := rfl

/-! ### `endState` -/

@[simp] theorem State.endState_AC (sc : SeqCount) (s : State) : (State.endState sc s).AC = s.AC := rfl
@[simp] theorem State.endState_DR (sc : SeqCount) (s : State) : (State.endState sc s).DR = s.DR := rfl
@[simp] theorem State.endState_AR (sc : SeqCount) (s : State) : (State.endState sc s).AR = s.AR := rfl
@[simp] theorem State.endState_PC (sc : SeqCount) (s : State) : (State.endState sc s).PC = s.PC := rfl
@[simp] theorem State.endState_IR (sc : SeqCount) (s : State) : (State.endState sc s).IR = s.IR := rfl
@[simp] theorem State.endState_TR (sc : SeqCount) (s : State) : (State.endState sc s).TR = s.TR := rfl
@[simp] theorem State.endState_OUTR (sc : SeqCount) (s : State) : (State.endState sc s).OUTR = s.OUTR := rfl
@[simp] theorem State.endState_INPR (sc : SeqCount) (s : State) : (State.endState sc s).INPR = s.INPR := rfl
@[simp] theorem State.endState_SC (sc : SeqCount) (s : State) : (State.endState sc s).SC = sc := rfl
@[simp] theorem State.endState_E (sc : SeqCount) (s : State) : (State.endState sc s).E = s.E := rfl
@[simp] theorem State.endState_S (sc : SeqCount) (s : State) : (State.endState sc s).S = s.S := rfl
@[simp] theorem State.endState_IEN (sc : SeqCount) (s : State) : (State.endState sc s).IEN = s.IEN := rfl
@[simp] theorem State.endState_R (sc : SeqCount) (s : State) : (State.endState sc s).R = s.R := rfl
@[simp] theorem State.endState_FGI (sc : SeqCount) (s : State) : (State.endState sc s).FGI = s.FGI := rfl
@[simp] theorem State.endState_FGO (sc : SeqCount) (s : State) : (State.endState sc s).FGO = s.FGO := rfl
@[simp] theorem State.endState_I (sc : SeqCount) (s : State) : (State.endState sc s).I = s.I := rfl
@[simp] theorem State.endState_M (sc : SeqCount) (s : State) : (State.endState sc s).M = s.M := rfl
@[simp] theorem State.endState_ERR (sc : SeqCount) (s : State) : (State.endState sc s).ERR = s.ERR := rfl
@[simp] theorem State.endState_profiler (sc : SeqCount) (s : State) : (State.endState sc s).profiler = s.profiler.count .cycle := rfl

/-! ### `endInstruction` -/

@[simp] theorem State.endInstruction_AC (b : State) (s : State) : (State.endInstruction b s).AC = s.AC := rfl
@[simp] theorem State.endInstruction_DR (b : State) (s : State) : (State.endInstruction b s).DR = s.DR := rfl
@[simp] theorem State.endInstruction_AR (b : State) (s : State) : (State.endInstruction b s).AR = s.AR := rfl
@[simp] theorem State.endInstruction_PC (b : State) (s : State) : (State.endInstruction b s).PC = s.PC := rfl
@[simp] theorem State.endInstruction_IR (b : State) (s : State) : (State.endInstruction b s).IR = s.IR := rfl
@[simp] theorem State.endInstruction_TR (b : State) (s : State) : (State.endInstruction b s).TR = s.TR := rfl
@[simp] theorem State.endInstruction_OUTR (b : State) (s : State) : (State.endInstruction b s).OUTR = s.OUTR := rfl
@[simp] theorem State.endInstruction_INPR (b : State) (s : State) : (State.endInstruction b s).INPR = s.INPR := rfl
@[simp] theorem State.endInstruction_SC (b : State) (s : State) : (State.endInstruction b s).SC = 0 := rfl
@[simp] theorem State.endInstruction_E (b : State) (s : State) : (State.endInstruction b s).E = s.E := rfl
@[simp] theorem State.endInstruction_S (b : State) (s : State) : (State.endInstruction b s).S = s.S := rfl
@[simp] theorem State.endInstruction_IEN (b : State) (s : State) : (State.endInstruction b s).IEN = s.IEN := rfl
@[simp] theorem State.endInstruction_R (b : State) (s : State) : (State.endInstruction b s).R = (if interruptRequest b then true else s.R) := rfl
@[simp] theorem State.endInstruction_FGI (b : State) (s : State) : (State.endInstruction b s).FGI = s.FGI := rfl
@[simp] theorem State.endInstruction_FGO (b : State) (s : State) : (State.endInstruction b s).FGO = s.FGO := rfl
@[simp] theorem State.endInstruction_I (b : State) (s : State) : (State.endInstruction b s).I = s.I := rfl
@[simp] theorem State.endInstruction_M (b : State) (s : State) : (State.endInstruction b s).M = s.M := rfl
@[simp] theorem State.endInstruction_ERR (b : State) (s : State) : (State.endInstruction b s).ERR = s.ERR := rfl
@[simp] theorem State.endInstruction_profiler (b : State) (s : State) : (State.endInstruction b s).profiler = (s.profiler.count .cycle).count .instructionCompleted := rfl

/-! ### `memWrite` -/

@[simp] theorem State.memWrite_AC (a : Addr) (v : Word) (s : State) : (State.memWrite a v s).AC = s.AC := rfl
@[simp] theorem State.memWrite_DR (a : Addr) (v : Word) (s : State) : (State.memWrite a v s).DR = s.DR := rfl
@[simp] theorem State.memWrite_AR (a : Addr) (v : Word) (s : State) : (State.memWrite a v s).AR = s.AR := rfl
@[simp] theorem State.memWrite_PC (a : Addr) (v : Word) (s : State) : (State.memWrite a v s).PC = s.PC := rfl
@[simp] theorem State.memWrite_IR (a : Addr) (v : Word) (s : State) : (State.memWrite a v s).IR = s.IR := rfl
@[simp] theorem State.memWrite_TR (a : Addr) (v : Word) (s : State) : (State.memWrite a v s).TR = s.TR := rfl
@[simp] theorem State.memWrite_OUTR (a : Addr) (v : Word) (s : State) : (State.memWrite a v s).OUTR = s.OUTR := rfl
@[simp] theorem State.memWrite_INPR (a : Addr) (v : Word) (s : State) : (State.memWrite a v s).INPR = s.INPR := rfl
@[simp] theorem State.memWrite_SC (a : Addr) (v : Word) (s : State) : (State.memWrite a v s).SC = s.SC := rfl
@[simp] theorem State.memWrite_E (a : Addr) (v : Word) (s : State) : (State.memWrite a v s).E = s.E := rfl
@[simp] theorem State.memWrite_S (a : Addr) (v : Word) (s : State) : (State.memWrite a v s).S = s.S := rfl
@[simp] theorem State.memWrite_IEN (a : Addr) (v : Word) (s : State) : (State.memWrite a v s).IEN = s.IEN := rfl
@[simp] theorem State.memWrite_R (a : Addr) (v : Word) (s : State) : (State.memWrite a v s).R = s.R := rfl
@[simp] theorem State.memWrite_FGI (a : Addr) (v : Word) (s : State) : (State.memWrite a v s).FGI = s.FGI := rfl
@[simp] theorem State.memWrite_FGO (a : Addr) (v : Word) (s : State) : (State.memWrite a v s).FGO = s.FGO := rfl
@[simp] theorem State.memWrite_I (a : Addr) (v : Word) (s : State) : (State.memWrite a v s).I = s.I := rfl
@[simp] theorem State.memWrite_M (a : Addr) (v : Word) (s : State) : (State.memWrite a v s).M = s.M.set a.toNat v := rfl
@[simp] theorem State.memWrite_ERR (a : Addr) (v : Word) (s : State) : (State.memWrite a v s).ERR = s.ERR := rfl
@[simp] theorem State.memWrite_profiler (a : Addr) (v : Word) (s : State) : (State.memWrite a v s).profiler = s.profiler.count (.memWrite a) := rfl

/-! ### `latchFields` -/

@[simp] theorem latchFields_AC (ind : Bool) (a : Addr) (s : State) : (latchFields ind a s).AC = s.AC := rfl
@[simp] theorem latchFields_DR (ind : Bool) (a : Addr) (s : State) : (latchFields ind a s).DR = s.DR := rfl
@[simp] theorem latchFields_AR (ind : Bool) (a : Addr) (s : State) : (latchFields ind a s).AR = a := rfl
@[simp] theorem latchFields_PC (ind : Bool) (a : Addr) (s : State) : (latchFields ind a s).PC = s.PC := rfl
@[simp] theorem latchFields_IR (ind : Bool) (a : Addr) (s : State) : (latchFields ind a s).IR = s.IR := rfl
@[simp] theorem latchFields_TR (ind : Bool) (a : Addr) (s : State) : (latchFields ind a s).TR = s.TR := rfl
@[simp] theorem latchFields_OUTR (ind : Bool) (a : Addr) (s : State) : (latchFields ind a s).OUTR = s.OUTR := rfl
@[simp] theorem latchFields_INPR (ind : Bool) (a : Addr) (s : State) : (latchFields ind a s).INPR = s.INPR := rfl
@[simp] theorem latchFields_SC (ind : Bool) (a : Addr) (s : State) : (latchFields ind a s).SC = 3 := rfl
@[simp] theorem latchFields_E (ind : Bool) (a : Addr) (s : State) : (latchFields ind a s).E = s.E := rfl
@[simp] theorem latchFields_S (ind : Bool) (a : Addr) (s : State) : (latchFields ind a s).S = s.S := rfl
@[simp] theorem latchFields_IEN (ind : Bool) (a : Addr) (s : State) : (latchFields ind a s).IEN = s.IEN := rfl
@[simp] theorem latchFields_R (ind : Bool) (a : Addr) (s : State) : (latchFields ind a s).R = s.R := rfl
@[simp] theorem latchFields_FGI (ind : Bool) (a : Addr) (s : State) : (latchFields ind a s).FGI = s.FGI := rfl
@[simp] theorem latchFields_FGO (ind : Bool) (a : Addr) (s : State) : (latchFields ind a s).FGO = s.FGO := rfl
@[simp] theorem latchFields_I (ind : Bool) (a : Addr) (s : State) : (latchFields ind a s).I = ind := rfl
@[simp] theorem latchFields_M (ind : Bool) (a : Addr) (s : State) : (latchFields ind a s).M = s.M := rfl
@[simp] theorem latchFields_ERR (ind : Bool) (a : Addr) (s : State) : (latchFields ind a s).ERR = s.ERR := rfl
@[simp] theorem latchFields_profiler (ind : Bool) (a : Addr) (s : State) : (latchFields ind a s).profiler = s.profiler.count .cycle := rfl

/-! ### `fetchOperand` -/

@[simp] theorem fetchOperand_AC (s : State) : (fetchOperand s).AC = s.AC := rfl
@[simp] theorem fetchOperand_DR (s : State) : (fetchOperand s).DR = s.word s.AR := rfl
@[simp] theorem fetchOperand_AR (s : State) : (fetchOperand s).AR = s.AR := rfl
@[simp] theorem fetchOperand_PC (s : State) : (fetchOperand s).PC = s.PC := rfl
@[simp] theorem fetchOperand_IR (s : State) : (fetchOperand s).IR = s.IR := rfl
@[simp] theorem fetchOperand_TR (s : State) : (fetchOperand s).TR = s.TR := rfl
@[simp] theorem fetchOperand_OUTR (s : State) : (fetchOperand s).OUTR = s.OUTR := rfl
@[simp] theorem fetchOperand_INPR (s : State) : (fetchOperand s).INPR = s.INPR := rfl
@[simp] theorem fetchOperand_SC (s : State) : (fetchOperand s).SC = s.SC + 1 := rfl
@[simp] theorem fetchOperand_E (s : State) : (fetchOperand s).E = s.E := rfl
@[simp] theorem fetchOperand_S (s : State) : (fetchOperand s).S = s.S := rfl
@[simp] theorem fetchOperand_IEN (s : State) : (fetchOperand s).IEN = s.IEN := rfl
@[simp] theorem fetchOperand_R (s : State) : (fetchOperand s).R = s.R := rfl
@[simp] theorem fetchOperand_FGI (s : State) : (fetchOperand s).FGI = s.FGI := rfl
@[simp] theorem fetchOperand_FGO (s : State) : (fetchOperand s).FGO = s.FGO := rfl
@[simp] theorem fetchOperand_I (s : State) : (fetchOperand s).I = s.I := rfl
@[simp] theorem fetchOperand_M (s : State) : (fetchOperand s).M = s.M := rfl
@[simp] theorem fetchOperand_ERR (s : State) : (fetchOperand s).ERR = s.ERR := rfl
@[simp] theorem fetchOperand_profiler (s : State) : (fetchOperand s).profiler = (s.profiler.count (.memRead s.AR)).count .cycle := rfl

/-! ### `indirectState` -/

@[simp] theorem indirectState_AC (s : State) : (indirectState s).AC = s.AC := rfl
@[simp] theorem indirectState_DR (s : State) : (indirectState s).DR = s.DR := rfl
@[simp] theorem indirectState_AR (s : State) : (indirectState s).AR = addressField (s.word s.AR) := rfl
@[simp] theorem indirectState_PC (s : State) : (indirectState s).PC = s.PC := rfl
@[simp] theorem indirectState_IR (s : State) : (indirectState s).IR = s.IR := rfl
@[simp] theorem indirectState_TR (s : State) : (indirectState s).TR = s.TR := rfl
@[simp] theorem indirectState_OUTR (s : State) : (indirectState s).OUTR = s.OUTR := rfl
@[simp] theorem indirectState_INPR (s : State) : (indirectState s).INPR = s.INPR := rfl
@[simp] theorem indirectState_SC (s : State) : (indirectState s).SC = 4 := rfl
@[simp] theorem indirectState_E (s : State) : (indirectState s).E = s.E := rfl
@[simp] theorem indirectState_S (s : State) : (indirectState s).S = s.S := rfl
@[simp] theorem indirectState_IEN (s : State) : (indirectState s).IEN = s.IEN := rfl
@[simp] theorem indirectState_R (s : State) : (indirectState s).R = s.R := rfl
@[simp] theorem indirectState_FGI (s : State) : (indirectState s).FGI = s.FGI := rfl
@[simp] theorem indirectState_FGO (s : State) : (indirectState s).FGO = s.FGO := rfl
@[simp] theorem indirectState_I (s : State) : (indirectState s).I = s.I := rfl
@[simp] theorem indirectState_M (s : State) : (indirectState s).M = s.M := rfl
@[simp] theorem indirectState_ERR (s : State) : (indirectState s).ERR = s.ERR := rfl
@[simp] theorem indirectState_profiler (s : State) : (indirectState s).profiler = (s.profiler.count (.memRead s.AR)).count .cycle := rfl

/-! ### `t0` -/

@[simp] theorem t0_AC (s : State) : (t0 s).AC = s.AC := rfl
@[simp] theorem t0_DR (s : State) : (t0 s).DR = s.DR := rfl
@[simp] theorem t0_AR (s : State) : (t0 s).AR = s.PC := rfl
@[simp] theorem t0_PC (s : State) : (t0 s).PC = s.PC := rfl
@[simp] theorem t0_IR (s : State) : (t0 s).IR = s.IR := rfl
@[simp] theorem t0_TR (s : State) : (t0 s).TR = s.TR := rfl
@[simp] theorem t0_OUTR (s : State) : (t0 s).OUTR = s.OUTR := rfl
@[simp] theorem t0_INPR (s : State) : (t0 s).INPR = s.INPR := rfl
@[simp] theorem t0_SC (s : State) : (t0 s).SC = 1 := rfl
@[simp] theorem t0_E (s : State) : (t0 s).E = s.E := rfl
@[simp] theorem t0_S (s : State) : (t0 s).S = s.S := rfl
@[simp] theorem t0_IEN (s : State) : (t0 s).IEN = s.IEN := rfl
@[simp] theorem t0_R (s : State) : (t0 s).R = s.R := rfl
@[simp] theorem t0_FGI (s : State) : (t0 s).FGI = s.FGI := rfl
@[simp] theorem t0_FGO (s : State) : (t0 s).FGO = s.FGO := rfl
@[simp] theorem t0_I (s : State) : (t0 s).I = s.I := rfl
@[simp] theorem t0_M (s : State) : (t0 s).M = s.M := rfl
@[simp] theorem t0_ERR (s : State) : (t0 s).ERR = s.ERR := rfl
@[simp] theorem t0_profiler (s : State) : (t0 s).profiler = s.profiler.count .cycle := rfl

/-! ### `t1` -/

@[simp] theorem t1_AC (s : State) : (t1 s).AC = s.AC := rfl
@[simp] theorem t1_DR (s : State) : (t1 s).DR = s.DR := rfl
@[simp] theorem t1_AR (s : State) : (t1 s).AR = s.AR := rfl
@[simp] theorem t1_PC (s : State) : (t1 s).PC = s.PC + 1 := rfl
@[simp] theorem t1_IR (s : State) : (t1 s).IR = s.word s.AR := rfl
@[simp] theorem t1_TR (s : State) : (t1 s).TR = s.TR := rfl
@[simp] theorem t1_OUTR (s : State) : (t1 s).OUTR = s.OUTR := rfl
@[simp] theorem t1_INPR (s : State) : (t1 s).INPR = s.INPR := rfl
@[simp] theorem t1_SC (s : State) : (t1 s).SC = 2 := rfl
@[simp] theorem t1_E (s : State) : (t1 s).E = s.E := rfl
@[simp] theorem t1_S (s : State) : (t1 s).S = s.S := rfl
@[simp] theorem t1_IEN (s : State) : (t1 s).IEN = s.IEN := rfl
@[simp] theorem t1_R (s : State) : (t1 s).R = s.R := rfl
@[simp] theorem t1_FGI (s : State) : (t1 s).FGI = s.FGI := rfl
@[simp] theorem t1_FGO (s : State) : (t1 s).FGO = s.FGO := rfl
@[simp] theorem t1_I (s : State) : (t1 s).I = s.I := rfl
@[simp] theorem t1_M (s : State) : (t1 s).M = s.M := rfl
@[simp] theorem t1_ERR (s : State) : (t1 s).ERR = s.ERR := rfl
@[simp] theorem t1_profiler (s : State) : (t1 s).profiler = (s.profiler.count (.memRead s.AR)).count .cycle := rfl

/-! ### `t2` -/

@[simp] theorem t2_AC (s : State) : (t2 s).AC = s.AC := rfl
@[simp] theorem t2_DR (s : State) : (t2 s).DR = s.DR := rfl
@[simp] theorem t2_AR (s : State) : (t2 s).AR = addressField s.IR := rfl
@[simp] theorem t2_PC (s : State) : (t2 s).PC = s.PC := rfl
@[simp] theorem t2_IR (s : State) : (t2 s).IR = s.IR := rfl
@[simp] theorem t2_TR (s : State) : (t2 s).TR = s.TR := rfl
@[simp] theorem t2_OUTR (s : State) : (t2 s).OUTR = s.OUTR := rfl
@[simp] theorem t2_INPR (s : State) : (t2 s).INPR = s.INPR := rfl
@[simp] theorem t2_SC (s : State) : (t2 s).SC = 3 := rfl
@[simp] theorem t2_E (s : State) : (t2 s).E = s.E := rfl
@[simp] theorem t2_S (s : State) : (t2 s).S = s.S := rfl
@[simp] theorem t2_IEN (s : State) : (t2 s).IEN = s.IEN := rfl
@[simp] theorem t2_R (s : State) : (t2 s).R = s.R := rfl
@[simp] theorem t2_FGI (s : State) : (t2 s).FGI = s.FGI := rfl
@[simp] theorem t2_FGO (s : State) : (t2 s).FGO = s.FGO := rfl
@[simp] theorem t2_I (s : State) : (t2 s).I = indirectBit s.IR := rfl
@[simp] theorem t2_M (s : State) : (t2 s).M = s.M := rfl
@[simp] theorem t2_ERR (s : State) : (t2 s).ERR = s.ERR := rfl
@[simp] theorem t2_profiler (s : State) : (t2 s).profiler = s.profiler.count .cycle := rfl

/-! ### `rt0` -/

@[simp] theorem rt0_AC (s : State) : (rt0 s).AC = s.AC := rfl
@[simp] theorem rt0_DR (s : State) : (rt0 s).DR = s.DR := rfl
@[simp] theorem rt0_AR (s : State) : (rt0 s).AR = 0 := rfl
@[simp] theorem rt0_PC (s : State) : (rt0 s).PC = s.PC := rfl
@[simp] theorem rt0_IR (s : State) : (rt0 s).IR = s.IR := rfl
@[simp] theorem rt0_TR (s : State) : (rt0 s).TR = s.PC.setWidth 16 := rfl
@[simp] theorem rt0_OUTR (s : State) : (rt0 s).OUTR = s.OUTR := rfl
@[simp] theorem rt0_INPR (s : State) : (rt0 s).INPR = s.INPR := rfl
@[simp] theorem rt0_SC (s : State) : (rt0 s).SC = 1 := rfl
@[simp] theorem rt0_E (s : State) : (rt0 s).E = s.E := rfl
@[simp] theorem rt0_S (s : State) : (rt0 s).S = s.S := rfl
@[simp] theorem rt0_IEN (s : State) : (rt0 s).IEN = s.IEN := rfl
@[simp] theorem rt0_R (s : State) : (rt0 s).R = s.R := rfl
@[simp] theorem rt0_FGI (s : State) : (rt0 s).FGI = s.FGI := rfl
@[simp] theorem rt0_FGO (s : State) : (rt0 s).FGO = s.FGO := rfl
@[simp] theorem rt0_I (s : State) : (rt0 s).I = s.I := rfl
@[simp] theorem rt0_M (s : State) : (rt0 s).M = s.M := rfl
@[simp] theorem rt0_ERR (s : State) : (rt0 s).ERR = s.ERR := rfl
@[simp] theorem rt0_profiler (s : State) : (rt0 s).profiler = s.profiler.count .cycle := rfl

/-! ### `rt1` -/

@[simp] theorem rt1_AC (s : State) : (rt1 s).AC = s.AC := rfl
@[simp] theorem rt1_DR (s : State) : (rt1 s).DR = s.DR := rfl
@[simp] theorem rt1_AR (s : State) : (rt1 s).AR = s.AR := rfl
@[simp] theorem rt1_PC (s : State) : (rt1 s).PC = 0 := rfl
@[simp] theorem rt1_IR (s : State) : (rt1 s).IR = s.IR := rfl
@[simp] theorem rt1_TR (s : State) : (rt1 s).TR = s.TR := rfl
@[simp] theorem rt1_OUTR (s : State) : (rt1 s).OUTR = s.OUTR := rfl
@[simp] theorem rt1_INPR (s : State) : (rt1 s).INPR = s.INPR := rfl
@[simp] theorem rt1_SC (s : State) : (rt1 s).SC = 2 := rfl
@[simp] theorem rt1_E (s : State) : (rt1 s).E = s.E := rfl
@[simp] theorem rt1_S (s : State) : (rt1 s).S = s.S := rfl
@[simp] theorem rt1_IEN (s : State) : (rt1 s).IEN = s.IEN := rfl
@[simp] theorem rt1_R (s : State) : (rt1 s).R = s.R := rfl
@[simp] theorem rt1_FGI (s : State) : (rt1 s).FGI = s.FGI := rfl
@[simp] theorem rt1_FGO (s : State) : (rt1 s).FGO = s.FGO := rfl
@[simp] theorem rt1_I (s : State) : (rt1 s).I = s.I := rfl
@[simp] theorem rt1_M (s : State) : (rt1 s).M = s.M.set s.AR.toNat s.TR := rfl
@[simp] theorem rt1_ERR (s : State) : (rt1 s).ERR = s.ERR := rfl
@[simp] theorem rt1_profiler (s : State) : (rt1 s).profiler = (s.profiler.count (.memWrite s.AR)).count .cycle := rfl

/-! ### `rt2` -/

@[simp] theorem rt2_AC (s : State) : (rt2 s).AC = s.AC := rfl
@[simp] theorem rt2_DR (s : State) : (rt2 s).DR = s.DR := rfl
@[simp] theorem rt2_AR (s : State) : (rt2 s).AR = s.AR := rfl
@[simp] theorem rt2_PC (s : State) : (rt2 s).PC = s.PC + 1 := rfl
@[simp] theorem rt2_IR (s : State) : (rt2 s).IR = s.IR := rfl
@[simp] theorem rt2_TR (s : State) : (rt2 s).TR = s.TR := rfl
@[simp] theorem rt2_OUTR (s : State) : (rt2 s).OUTR = s.OUTR := rfl
@[simp] theorem rt2_INPR (s : State) : (rt2 s).INPR = s.INPR := rfl
@[simp] theorem rt2_SC (s : State) : (rt2 s).SC = 0 := rfl
@[simp] theorem rt2_E (s : State) : (rt2 s).E = s.E := rfl
@[simp] theorem rt2_S (s : State) : (rt2 s).S = s.S := rfl
@[simp] theorem rt2_IEN (s : State) : (rt2 s).IEN = false := rfl
@[simp] theorem rt2_R (s : State) : (rt2 s).R = false := rfl
@[simp] theorem rt2_FGI (s : State) : (rt2 s).FGI = s.FGI := rfl
@[simp] theorem rt2_FGO (s : State) : (rt2 s).FGO = s.FGO := rfl
@[simp] theorem rt2_I (s : State) : (rt2 s).I = s.I := rfl
@[simp] theorem rt2_M (s : State) : (rt2 s).M = s.M := rfl
@[simp] theorem rt2_ERR (s : State) : (rt2 s).ERR = s.ERR := rfl
@[simp] theorem rt2_profiler (s : State) : (rt2 s).profiler = s.profiler.count .cycle := rfl

/-! ### `decodeErrorState` -/

@[simp] theorem decodeErrorState_AC (s : State) : (decodeErrorState s).AC = s.AC := rfl
@[simp] theorem decodeErrorState_DR (s : State) : (decodeErrorState s).DR = s.DR := rfl
@[simp] theorem decodeErrorState_AR (s : State) : (decodeErrorState s).AR = s.AR := rfl
@[simp] theorem decodeErrorState_PC (s : State) : (decodeErrorState s).PC = s.PC := rfl
@[simp] theorem decodeErrorState_IR (s : State) : (decodeErrorState s).IR = s.IR := rfl
@[simp] theorem decodeErrorState_TR (s : State) : (decodeErrorState s).TR = s.TR := rfl
@[simp] theorem decodeErrorState_OUTR (s : State) : (decodeErrorState s).OUTR = s.OUTR := rfl
@[simp] theorem decodeErrorState_INPR (s : State) : (decodeErrorState s).INPR = s.INPR := rfl
@[simp] theorem decodeErrorState_SC (s : State) : (decodeErrorState s).SC = 0 := rfl
@[simp] theorem decodeErrorState_E (s : State) : (decodeErrorState s).E = s.E := rfl
@[simp] theorem decodeErrorState_S (s : State) : (decodeErrorState s).S = false := rfl
@[simp] theorem decodeErrorState_IEN (s : State) : (decodeErrorState s).IEN = s.IEN := rfl
@[simp] theorem decodeErrorState_R (s : State) : (decodeErrorState s).R = s.R := rfl
@[simp] theorem decodeErrorState_FGI (s : State) : (decodeErrorState s).FGI = s.FGI := rfl
@[simp] theorem decodeErrorState_FGO (s : State) : (decodeErrorState s).FGO = s.FGO := rfl
@[simp] theorem decodeErrorState_I (s : State) : (decodeErrorState s).I = s.I := rfl
@[simp] theorem decodeErrorState_M (s : State) : (decodeErrorState s).M = s.M := rfl
@[simp] theorem decodeErrorState_ERR (s : State) : (decodeErrorState s).ERR = some (.decodeError s.IR (s.PC - 1)) := rfl
@[simp] theorem decodeErrorState_profiler (s : State) : (decodeErrorState s).profiler = s.profiler.count .cycle := rfl

/-! ### `skipIf` -/

@[simp] theorem State.skipIf_AC (c : Bool) (s : State) : (State.skipIf c s).AC = s.AC := rfl
@[simp] theorem State.skipIf_DR (c : Bool) (s : State) : (State.skipIf c s).DR = s.DR := rfl
@[simp] theorem State.skipIf_AR (c : Bool) (s : State) : (State.skipIf c s).AR = s.AR := rfl
@[simp] theorem State.skipIf_PC (c : Bool) (s : State) : (State.skipIf c s).PC = (if c then s.PC + 1 else s.PC) := rfl
@[simp] theorem State.skipIf_IR (c : Bool) (s : State) : (State.skipIf c s).IR = s.IR := rfl
@[simp] theorem State.skipIf_TR (c : Bool) (s : State) : (State.skipIf c s).TR = s.TR := rfl
@[simp] theorem State.skipIf_OUTR (c : Bool) (s : State) : (State.skipIf c s).OUTR = s.OUTR := rfl
@[simp] theorem State.skipIf_INPR (c : Bool) (s : State) : (State.skipIf c s).INPR = s.INPR := rfl
@[simp] theorem State.skipIf_SC (c : Bool) (s : State) : (State.skipIf c s).SC = s.SC := rfl
@[simp] theorem State.skipIf_E (c : Bool) (s : State) : (State.skipIf c s).E = s.E := rfl
@[simp] theorem State.skipIf_S (c : Bool) (s : State) : (State.skipIf c s).S = s.S := rfl
@[simp] theorem State.skipIf_IEN (c : Bool) (s : State) : (State.skipIf c s).IEN = s.IEN := rfl
@[simp] theorem State.skipIf_R (c : Bool) (s : State) : (State.skipIf c s).R = s.R := rfl
@[simp] theorem State.skipIf_FGI (c : Bool) (s : State) : (State.skipIf c s).FGI = s.FGI := rfl
@[simp] theorem State.skipIf_FGO (c : Bool) (s : State) : (State.skipIf c s).FGO = s.FGO := rfl
@[simp] theorem State.skipIf_I (c : Bool) (s : State) : (State.skipIf c s).I = s.I := rfl
@[simp] theorem State.skipIf_M (c : Bool) (s : State) : (State.skipIf c s).M = s.M := rfl
@[simp] theorem State.skipIf_ERR (c : Bool) (s : State) : (State.skipIf c s).ERR = s.ERR := rfl
@[simp] theorem State.skipIf_profiler (c : Bool) (s : State) : (State.skipIf c s).profiler = s.profiler := rfl

/-! ### The counters -/

@[simp] theorem Profiler.count_cycle (p : Profiler) :
    p.count .cycle = ⟨p.cycles + 1, p.instructions, p.reads, p.writes⟩ := rfl
@[simp] theorem Profiler.count_instructionCompleted (p : Profiler) :
    p.count .instructionCompleted = ⟨p.cycles, p.instructions + 1, p.reads, p.writes⟩ := rfl
@[simp] theorem Profiler.count_memRead (p : Profiler) (a : Addr) :
    p.count (.memRead a) = ⟨p.cycles, p.instructions, p.reads + 1, p.writes⟩ := rfl
@[simp] theorem Profiler.count_memWrite (p : Profiler) (a : Addr) :
    p.count (.memWrite a) = ⟨p.cycles, p.instructions, p.reads, p.writes + 1⟩ := rfl

/-! ### Reading a word -/

/-- A word of memory depends on the memory alone. -/
theorem State.word_eq (s : State) (a : Addr) : s.word a = s.M.read a.toNat := rfl

theorem State.word_congr {s t : State} (h : t.M = s.M) (a : Addr) : t.word a = s.word a := by
  rw [State.word_eq, State.word_eq, h]

/-- The request condition depends on IEN, FGI, FGO and R alone (R211). -/
theorem interruptRequest_congr {s t : State} (hi : t.IEN = s.IEN) (hg : t.FGI = s.FGI) (ho : t.FGO = s.FGO)
    (hr : t.R = s.R) : interruptRequest t = interruptRequest s := by
  simp [interruptRequest, hi, hg, ho, hr]

end Sys2Proof.Machine
end

