-- ==== Sys2Proof/Laws/Ops.lean ====
section
/-! SUPPORT. One lemma for each shared operation that says what it answers: the performance of a list of timing
states, the two shapes of an instruction, the interrupt cycle, and the fields T2 latches. -/

namespace Sys2Proof.Machine

@[simp] theorem performAll_nil (s : State) : performAll [] s = s := rfl

@[simp] theorem performAll_cons (f : State → State) (fs : List (State → State)) (s : State) :
    performAll (f :: fs) s = performAll fs (f s) := rfl

/-- A memory-reference instruction with I = 0: its phases after T2 (R106). -/
theorem runMemoryReference_direct (phases : List (State → State)) (a : Addr) (s : State) :
    runMemoryReference phases false a s = .next (performAll phases (latchFields false a s)) := rfl

/-- A memory-reference instruction with I = 1: the indirect state, then its phases (R105, R106). -/
theorem runMemoryReference_indirect (phases : List (State → State)) (a : Addr) (s : State) :
    runMemoryReference phases true a s = .next (performAll phases (indirectState (latchFields true a s))) := rfl

/-- The state a memory-reference instruction's phase 0 begins in: T2, and the indirect state when I = 1. -/
def operandState (indirect : Bool) (a : Addr) (s : State) : State :=
  if indirect then indirectState (latchFields indirect a s) else latchFields indirect a s

/-- A memory-reference instruction is its phases performed from `operandState` (R106). -/
theorem runMemoryReference_eq (phases : List (State → State)) (ind : Bool) (a : Addr) (s : State) :
    runMemoryReference phases ind a s = .next (performAll phases (operandState ind a s)) := by
  cases ind <;> rfl

/-- When phase 0 begins, AR holds the effective address (R130, R74). -/
@[simp] theorem operandState_AR (ind : Bool) (a : Addr) (s : State) :
    (operandState ind a s).AR = effectiveAddress ind a s := by
  cases ind <;> rfl

@[simp] theorem operandState_AC (ind : Bool) (a : Addr) (s : State) : (operandState ind a s).AC = s.AC := by
  cases ind <;> rfl
@[simp] theorem operandState_DR (ind : Bool) (a : Addr) (s : State) : (operandState ind a s).DR = s.DR := by
  cases ind <;> rfl
@[simp] theorem operandState_PC (ind : Bool) (a : Addr) (s : State) : (operandState ind a s).PC = s.PC := by
  cases ind <;> rfl
@[simp] theorem operandState_IR (ind : Bool) (a : Addr) (s : State) : (operandState ind a s).IR = s.IR := by
  cases ind <;> rfl
@[simp] theorem operandState_TR (ind : Bool) (a : Addr) (s : State) : (operandState ind a s).TR = s.TR := by
  cases ind <;> rfl
@[simp] theorem operandState_OUTR (ind : Bool) (a : Addr) (s : State) : (operandState ind a s).OUTR = s.OUTR := by
  cases ind <;> rfl
@[simp] theorem operandState_INPR (ind : Bool) (a : Addr) (s : State) : (operandState ind a s).INPR = s.INPR := by
  cases ind <;> rfl
@[simp] theorem operandState_SC (ind : Bool) (a : Addr) (s : State) :
    (operandState ind a s).SC = if ind then 4 else 3 := by
  cases ind <;> rfl
@[simp] theorem operandState_E (ind : Bool) (a : Addr) (s : State) : (operandState ind a s).E = s.E := by
  cases ind <;> rfl
@[simp] theorem operandState_S (ind : Bool) (a : Addr) (s : State) : (operandState ind a s).S = s.S := by
  cases ind <;> rfl
@[simp] theorem operandState_IEN (ind : Bool) (a : Addr) (s : State) : (operandState ind a s).IEN = s.IEN := by
  cases ind <;> rfl
@[simp] theorem operandState_R (ind : Bool) (a : Addr) (s : State) : (operandState ind a s).R = s.R := by
  cases ind <;> rfl
@[simp] theorem operandState_FGI (ind : Bool) (a : Addr) (s : State) : (operandState ind a s).FGI = s.FGI := by
  cases ind <;> rfl
@[simp] theorem operandState_FGO (ind : Bool) (a : Addr) (s : State) : (operandState ind a s).FGO = s.FGO := by
  cases ind <;> rfl
@[simp] theorem operandState_I (ind : Bool) (a : Addr) (s : State) : (operandState ind a s).I = ind := by
  cases ind <;> rfl
@[simp] theorem operandState_M (ind : Bool) (a : Addr) (s : State) : (operandState ind a s).M = s.M := by
  cases ind <;> rfl
@[simp] theorem operandState_ERR (ind : Bool) (a : Addr) (s : State) : (operandState ind a s).ERR = s.ERR := by
  cases ind <;> rfl

/-- A one-state instruction is its state T3 after T2 (R109). -/
theorem runSelector_eq (f : State → State) (w : Word) (s : State) :
    runSelector [f] w s = .next (f (latchFields (indirectBit w) (addressField w) s)) := rfl

/-- The interrupt cycle in one equation (R213 to R217): M[0] <- PC, PC <- 1, IEN <- 0, R <- 0, AR <- 0, TR <- PC. -/
theorem interruptCycle_eq (s : State) :
    interruptCycle s =
      { s with
        AR := 0
        TR := s.PC.setWidth 16
        M := s.M.set 0 (s.PC.setWidth 16)
        PC := Config.interruptEntry
        IEN := false
        R := false
        SC := 0
        profiler := ⟨s.profiler.cycles + 3, s.profiler.instructions, s.profiler.reads, s.profiler.writes + 1⟩ } :=
  rfl

/-- `foldInterrupt` performs the interrupt cycle exactly when the engine runs with R = 1. -/
theorem foldInterrupt_of_not {s : State} (h : (s.S && s.R) = false) : foldInterrupt s = s := by
  simp [foldInterrupt, h]

theorem foldInterrupt_of {s : State} (h : (s.S && s.R) = true) : foldInterrupt s = interruptCycle s := by
  simp [foldInterrupt, h]

/-- The register names determine the registers: frames are stated through them. -/
theorem RegName.mem_all (r : RegName) : r ∈ RegName.all := by cases r <;> decide

end Sys2Proof.Machine
end

