-- ==== Sys2Proof/Laws/Instructions.lean ====
section
/-! SUPPORT. One equation per instruction: `exec` as the timing states it performs, last one outermost. Proofs rewrite
with these and the field lemmas of Laws/State.lean instead of unfolding `exec`. -/

namespace Sys2Proof.Machine

theorem exec_and (ind : Bool) (a : Addr) (s : State) :
    exec (.and ind a) s = .next (andFinish (fetchOperand (operandState ind a s))) := by
  cases ind <;> rfl

theorem exec_add (ind : Bool) (a : Addr) (s : State) :
    exec (.add ind a) s = .next (addFinish (fetchOperand (operandState ind a s))) := by
  cases ind <;> rfl

theorem exec_lda (ind : Bool) (a : Addr) (s : State) :
    exec (.lda ind a) s = .next (ldaFinish (fetchOperand (operandState ind a s))) := by
  cases ind <;> rfl

theorem exec_sta (ind : Bool) (a : Addr) (s : State) :
    exec (.sta ind a) s = .next (staStore (operandState ind a s)) := by
  cases ind <;> rfl

theorem exec_bun (ind : Bool) (a : Addr) (s : State) :
    exec (.bun ind a) s = .next (bunBranch (operandState ind a s)) := by
  cases ind <;> rfl

theorem exec_bsa (ind : Bool) (a : Addr) (s : State) :
    exec (.bsa ind a) s = .next (bsaSave (operandState ind a s)) := by
  cases ind <;> rfl

theorem exec_isz (ind : Bool) (a : Addr) (s : State) :
    exec (.isz ind a) s = .next (iszStore (iszIncrement (fetchOperand (operandState ind a s)))) := by
  cases ind <;> rfl

theorem exec_cla (s : State) : exec .cla s = .next (claT3 (latchFields false 0x800 s)) := rfl

theorem exec_cle (s : State) : exec .cle s = .next (cleT3 (latchFields false 0x400 s)) := rfl

theorem exec_cma (s : State) : exec .cma s = .next (cmaT3 (latchFields false 0x200 s)) := rfl

theorem exec_cme (s : State) : exec .cme s = .next (cmeT3 (latchFields false 0x100 s)) := rfl

theorem exec_cir (s : State) : exec .cir s = .next (cirT3 (latchFields false 0x080 s)) := rfl

theorem exec_cil (s : State) : exec .cil s = .next (cilT3 (latchFields false 0x040 s)) := rfl

theorem exec_inc (s : State) : exec .inc s = .next (incT3 (latchFields false 0x020 s)) := rfl

theorem exec_spa (s : State) : exec .spa s = .next (spaT3 (latchFields false 0x010 s)) := rfl

theorem exec_sna (s : State) : exec .sna s = .next (snaT3 (latchFields false 0x008 s)) := rfl

theorem exec_sza (s : State) : exec .sza s = .next (szaT3 (latchFields false 0x004 s)) := rfl

theorem exec_sze (s : State) : exec .sze s = .next (szeT3 (latchFields false 0x002 s)) := rfl

theorem exec_hlt (s : State) : exec .hlt s = .next (hltT3 (latchFields false 0x001 s)) := rfl

theorem exec_inp (s : State) : exec .inp s = .next (inpT3 (latchFields true 0x800 s)) := rfl

theorem exec_out (s : State) : exec .out s = .next (outT3 (latchFields true 0x400 s)) := rfl

theorem exec_ski (s : State) : exec .ski s = .next (skiT3 (latchFields true 0x200 s)) := rfl

theorem exec_sko (s : State) : exec .sko s = .next (skoT3 (latchFields true 0x100 s)) := rfl

theorem exec_ion (s : State) : exec .ion s = .next (ionT3 (latchFields true 0x080 s)) := rfl

theorem exec_iof (s : State) : exec .iof s = .next (iofT3 (latchFields true 0x040 s)) := rfl

end Sys2Proof.Machine
end

