-- ==== Sys2Proof/Laws/Step.lean ====
section
/-! SUPPORT. What one timing state can do, said once: the inversion of `stepCycle`, and how its cases are built. The
whole-machine facts are case analyses over it, never a new unfolding of `stepCycle`. -/

namespace Sys2Proof.Machine

/-- A sequence counter below 3 is 0, 1 or 2. -/
theorem SeqCount.cases_lt_three {sc : SeqCount} (h : sc.toNat < 3) : sc = 0 ∨ sc = 1 ∨ sc = 2 := by
  rcases (by omega : sc.toNat = 0 ∨ sc.toNat = 1 ∨ sc.toNat = 2) with h | h | h
  · exact .inl (BitVec.eq_of_toNat_eq h)
  · exact .inr (.inl (BitVec.eq_of_toNat_eq h))
  · exact .inr (.inr (BitVec.eq_of_toNat_eq h))

/-- The SC at which phase `p` of `i` is performed (R106, R109): 3 + I + p for a memory-reference instruction. -/
def phaseSC (i : Instr) (s : State) (p : Nat) : Nat := 3 + (if i.isMemoryReference && s.I then 1 else 0) + p

/-- An entry of the states after decode is the indirect state or an execution phase (R105, R106). -/
theorem statesAfterDecode_get {i : Instr} {s : State} {k : Nat} {f : State → State}
    (h : (statesAfterDecode i s)[k]? = some f) :
    (k = 0 ∧ i.isMemoryReference = true ∧ s.I = true ∧ f = indirectState) ∨
    ∃ p, 3 + k = phaseSC i s p ∧ (phasesOf i)[p]? = some f := by
  unfold statesAfterDecode withIndirect at h
  unfold phaseSC
  by_cases hb : (i.isMemoryReference && s.I) = true
  · rw [if_pos hb] at h
    rw [if_pos hb]
    cases k with
    | zero =>
      simp only [Bool.and_eq_true] at hb
      exact .inl ⟨rfl, hb.1, hb.2, by simpa using h.symm⟩
    | succ k => exact .inr ⟨k, by omega, by simpa using h⟩
  · rw [if_neg hb] at h
    rw [if_neg hb]
    exact .inr ⟨k, by omega, h⟩

/-- The inversion of `stepCycle` (R100): everything one timing state can be. -/
theorem stepCycle_cases {s t : State} (h : stepCycle s = .next t) :
    (s.S = false ∧ t = s) ∨
    (s.S = true ∧ s.R = true ∧
      ((s.SC = 0 ∧ t = rt0 s) ∨ (s.SC = 1 ∧ t = rt1 s) ∨ (s.SC = 2 ∧ t = rt2 s))) ∨
    (s.S = true ∧ s.R = false ∧
      ((s.SC = 0 ∧ t = t0 s) ∨ (s.SC = 1 ∧ t = t1 s) ∨ (s.SC = 2 ∧ t = t2 s) ∨
        (s.SC = 3 ∧ (∃ why, decode s.IR = .error why) ∧ t = decodeErrorState s) ∨
        (s.SC = 3 ∧ s.I = true ∧ (∃ i, decode s.IR = .ok i ∧ i.isMemoryReference = true) ∧ t = indirectState s) ∨
        ∃ i p f, decode s.IR = .ok i ∧ s.SC.toNat = phaseSC i s p ∧ (phasesOf i)[p]? = some f ∧ t = f s)) := by
  unfold stepCycle at h
  by_cases hS : s.S = true
  · rw [if_pos hS] at h
    cases hts : timingState? s with
    | none => rw [hts] at h; cases h
    | some f =>
      rw [hts] at h
      cases h
      unfold timingState? at hts
      by_cases hR : s.R = true
      · rw [if_pos hR] at hts
        have hlt : s.SC.toNat < 3 := by
          by_contra hge
          rw [List.getElem?_eq_none (by simpa [interruptStates] using hge)] at hts
          cases hts
        refine .inr (.inl ⟨hS, hR, ?_⟩)
        rcases SeqCount.cases_lt_three hlt with hc | hc | hc <;> rw [hc] at hts <;> cases hts
        · exact .inl ⟨hc, rfl⟩
        · exact .inr (.inl ⟨hc, rfl⟩)
        · exact .inr (.inr ⟨hc, rfl⟩)
      · rw [if_neg hR] at hts
        refine .inr (.inr ⟨hS, by simpa using hR, ?_⟩)
        by_cases hlt : s.SC.toNat < 3
        · rw [if_pos hlt] at hts
          rcases SeqCount.cases_lt_three hlt with hc | hc | hc <;> rw [hc] at hts <;> cases hts
          · exact .inl ⟨hc, rfl⟩
          · exact .inr (.inl ⟨hc, rfl⟩)
          · exact .inr (.inr (.inl ⟨hc, rfl⟩))
        · rw [if_neg hlt] at hts
          refine .inr (.inr (.inr ?_))
          cases hd : decode s.IR with
          | error why =>
            simp only [hd] at hts
            split at hts
            next hc =>
              cases hts
              exact .inl ⟨BitVec.eq_of_toNat_eq hc, ⟨why, rfl⟩, rfl⟩
            next => cases hts
          | ok i =>
            simp only [hd] at hts
            rcases statesAfterDecode_get hts with ⟨hk, hm, hI, rfl⟩ | ⟨p, hp, hf⟩
            · exact .inr (.inl ⟨BitVec.eq_of_toNat_eq (by simpa using (by omega : s.SC.toNat = 3)), hI,
                ⟨i, rfl, hm⟩, rfl⟩)
            · exact .inr (.inr ⟨i, p, f, rfl, by omega, hf, rfl⟩)
  · rw [if_neg hS] at h
    cases h
    exact .inl ⟨by simpa using hS, rfl⟩

/-- The other direction for an execution phase: where phase `p` of `i` stands next, `stepCycle` performs it. -/
theorem stepCycle_phase {s : State} {i : Instr} {p : Nat} {f : State → State} (hS : s.S = true) (hR : s.R = false)
    (hd : decode s.IR = .ok i) (hsc : s.SC.toNat = phaseSC i s p) (hf : (phasesOf i)[p]? = some f) :
    stepCycle s = .next (f s) := by
  have hk : (statesAfterDecode i s)[s.SC.toNat - 3]? = some f := by
    unfold phaseSC at hsc
    unfold statesAfterDecode withIndirect
    split at hsc
    next hb => rw [if_pos hb, show s.SC.toNat - 3 = p + 1 by omega]; simpa using hf
    next hb => rw [if_neg hb, show s.SC.toNat - 3 = p by omega]; exact hf
  have hlt : ¬ s.SC.toNat < 3 := by
    unfold phaseSC at hsc
    omega
  simp [stepCycle, timingState?, hS, hR, hlt, hd, hk]

/-- A decoded word's fields are its instruction's word: the memory-reference case of reading `decode` backwards. -/
theorem decode_memoryReference {w : Word} (h : opcodeField w ≠ 7) : ∃ i, decode w = .ok i ∧ i.isMemoryReference = true := by
  unfold decode
  revert h
  generalize opcodeField w = op
  intro h
  have hlt : op.toNat < 7 := by
    have := op.isLt
    have hne : op.toNat ≠ 7 := fun hx => h (BitVec.eq_of_toNat_eq hx)
    omega
  rcases (by omega : op.toNat = 0 ∨ op.toNat = 1 ∨ op.toNat = 2 ∨ op.toNat = 3 ∨ op.toNat = 4 ∨ op.toNat = 5 ∨
    op.toNat = 6) with h | h | h | h | h | h | h <;> simp [memoryReference?, h, Instr.isMemoryReference]

/-- A property of every execution phase of every instruction holds once it holds of the table's rows: the phases of the
memory-reference instructions (R108) and the one state of each of the others (R109). -/
theorem phases_induction {P : Instr → Nat → (State → State) → Prop}
    (memory : ∀ ind a,
      P (.and ind a) 0 fetchOperand ∧ P (.and ind a) 1 andFinish ∧ P (.add ind a) 0 fetchOperand ∧
      P (.add ind a) 1 addFinish ∧ P (.lda ind a) 0 fetchOperand ∧ P (.lda ind a) 1 ldaFinish ∧
      P (.sta ind a) 0 staStore ∧ P (.bun ind a) 0 bunBranch ∧ P (.bsa ind a) 0 bsaSave ∧
      P (.isz ind a) 0 fetchOperand ∧ P (.isz ind a) 1 iszIncrement ∧ P (.isz ind a) 2 iszStore)
    (register : P .cla 0 claT3 ∧ P .cle 0 cleT3 ∧ P .cma 0 cmaT3 ∧ P .cme 0 cmeT3 ∧ P .cir 0 cirT3 ∧
      P .cil 0 cilT3 ∧ P .inc 0 incT3 ∧ P .spa 0 spaT3 ∧ P .sna 0 snaT3 ∧ P .sza 0 szaT3 ∧ P .sze 0 szeT3 ∧
      P .hlt 0 hltT3)
    (inputOutput : P .inp 0 inpT3 ∧ P .out 0 outT3 ∧ P .ski 0 skiT3 ∧ P .sko 0 skoT3 ∧ P .ion 0 ionT3 ∧ P .iof 0 iofT3)
    {i : Instr} {p : Nat} {f : State → State} (hf : (phasesOf i)[p]? = some f) : P i p f := by
  obtain ⟨r0, r1, r2, r3, r4, r5, r6, r7, r8, r9, r10, r11⟩ := register
  obtain ⟨o0, o1, o2, o3, o4, o5⟩ := inputOutput
  cases i with
  | and ind a | add ind a | lda ind a | sta ind a | bun ind a | bsa ind a | isz ind a =>
    obtain ⟨m0, m1, m2, m3, m4, m5, m6, m7, m8, m9, m10, m11⟩ := memory ind a
    rcases p with _ | _ | _ | p <;>
      simp [phasesOf, andPhases, addPhases, ldaPhases, staPhases, bunPhases, bsaPhases, iszPhases] at hf <;>
      (subst hf; assumption)
  | _ =>
    rcases p with _ | p <;>
      simp [phasesOf, claPhases, clePhases, cmaPhases, cmePhases, cirPhases, cilPhases, incPhases, spaPhases, snaPhases,
        szaPhases, szePhases, hltPhases, inpPhases, outPhases, skiPhases, skoPhases, ionPhases, iofPhases] at hf <;>
      (subst hf; assumption)

/-- Where `stepCycle` answers a next state on a running engine, SC named a timing state. -/
theorem timingState_isSome {s t : State} (hS : s.S = true) (h : stepCycle s = .next t) :
    (timingState? s).isSome = true := by
  unfold stepCycle at h
  rw [if_pos hS] at h
  cases hx : timingState? s with
  | none => rw [hx] at h; cases h
  | some f => rfl

end Sys2Proof.Machine
end

