-- ==== Sys2Proof/Tests/Slice0.lean ====
section
/-! SUPPORT. The model's own tests: legal and illegal words, the decoding of every instruction's word, the step vectors
of 95_test_vectors.md (the names carry the vector's number), and for every obligation with hypotheses a concrete case
that meets them. Every expected value is the spec's. -/

namespace Sys2Proof.Tests

open Sys2Proof Sys2Proof.Machine Sys2Proof.Statements

/-! ### Legal and illegal words (30_encoding.md rule R78) -/

theorem test_legalWord_refuses_no_register_selector : legalWord 0x7000 = false := by decide
theorem test_legalWord_refuses_two_register_selectors : legalWord 0x7003 = false := by decide
theorem test_legalWord_refuses_all_register_selectors : legalWord 0x7FFF = false := by decide
theorem test_legalWord_refuses_no_io_selector : legalWord 0xF000 = false := by decide
theorem test_legalWord_refuses_io_selector_bit_5 : legalWord 0xF020 = false := by decide
theorem test_legalWord_refuses_io_selectors_11_and_5 : legalWord 0xF820 = false := by decide
theorem test_legalWord_refuses_all_io_selectors : legalWord 0xFFFF = false := by decide
theorem test_legalWord_accepts_each_class :
    legalWord 0x0000 = true ∧ legalWord 0xEFFF = true ∧ legalWord 0x7001 = true ∧ legalWord 0xF040 = true := by decide
theorem test_wf_isz : (Instr.isz true 0xFFF).wf = true := by decide

/-! ### The word of every instruction, written out bit by bit (30_encoding.md rules R71, R73, R76, R77)

A memory-reference word is `I ooo aaaaaaaaaaaa`; a register-reference word is `0 111` and one selector bit, an
input/output word `1 111` and one selector bit. -/

/-- What the decoder reads from a word, none for an illegal one. -/
def decoded (w : Word) : Option Instr := (decode w).toOption

theorem test_decode_and : decoded 0b0000000000000001#16 = some (.and false 0x001) ∧
    decoded 0b1000100000000110#16 = some (.and true 0x806) := by decide
theorem test_decode_add : decoded 0b0001000000000001#16 = some (.add false 0x001) ∧
    decoded 0b1001100000000110#16 = some (.add true 0x806) := by decide
theorem test_decode_lda : decoded 0b0010000000000001#16 = some (.lda false 0x001) ∧
    decoded 0b1010100000000110#16 = some (.lda true 0x806) := by decide
theorem test_decode_sta : decoded 0b0011000000000001#16 = some (.sta false 0x001) ∧
    decoded 0b1011100000000110#16 = some (.sta true 0x806) := by decide
theorem test_decode_bun : decoded 0b0100000000000001#16 = some (.bun false 0x001) ∧
    decoded 0b1100100000000110#16 = some (.bun true 0x806) := by decide
theorem test_decode_bsa : decoded 0b0101000000000001#16 = some (.bsa false 0x001) ∧
    decoded 0b1101100000000110#16 = some (.bsa true 0x806) := by decide
theorem test_decode_isz : decoded 0b0110000000000001#16 = some (.isz false 0x001) ∧
    decoded 0b1110100000000110#16 = some (.isz true 0x806) := by decide
theorem test_decode_cla : decoded 0b0111100000000000#16 = some .cla := by decide
theorem test_decode_cle : decoded 0b0111010000000000#16 = some .cle := by decide
theorem test_decode_cma : decoded 0b0111001000000000#16 = some .cma := by decide
theorem test_decode_cme : decoded 0b0111000100000000#16 = some .cme := by decide
theorem test_decode_cir : decoded 0b0111000010000000#16 = some .cir := by decide
theorem test_decode_cil : decoded 0b0111000001000000#16 = some .cil := by decide
theorem test_decode_inc : decoded 0b0111000000100000#16 = some .inc := by decide
theorem test_decode_spa : decoded 0b0111000000010000#16 = some .spa := by decide
theorem test_decode_sna : decoded 0b0111000000001000#16 = some .sna := by decide
theorem test_decode_sza : decoded 0b0111000000000100#16 = some .sza := by decide
theorem test_decode_sze : decoded 0b0111000000000010#16 = some .sze := by decide
theorem test_decode_hlt : decoded 0b0111000000000001#16 = some .hlt := by decide
theorem test_decode_inp : decoded 0b1111100000000000#16 = some .inp := by decide
theorem test_decode_out : decoded 0b1111010000000000#16 = some .out := by decide
theorem test_decode_ski : decoded 0b1111001000000000#16 = some .ski := by decide
theorem test_decode_sko : decoded 0b1111000100000000#16 = some .sko := by decide
theorem test_decode_ion : decoded 0b1111000010000000#16 = some .ion := by decide
theorem test_decode_iof : decoded 0b1111000001000000#16 = some .iof := by decide
theorem test_decode_refuses :
    decode 0b0111000000000000#16 = .error .registerReferenceSelector ∧
    decode 0b0111000000000011#16 = .error .registerReferenceSelector ∧
    decode 0b1111000000000001#16 = .error .inputOutputSelector ∧
    decode 0b1111000000100000#16 = .error .inputOutputSelector ∧
    decode 0b1111100000100000#16 = .error .inputOutputSelector := by decide
theorem test_decodeTableWord :
    decodeTableWord 16 0x7800 = some .cla ∧ decodeTableWord 16 0x8201 = some (.and true 0x201) ∧
    decodeTableWord 16 0xF000 = none := by decide

/-! ### One step from a loaded engine (95_test_vectors.md sections 2 to 5)

`loadedAt pc cells` is the state after a load (rule R252) with PC = `pc` and the listed words in memory. A vector's end state is
its start state with exactly the values the vector lists changed; the counters are its "states" and the accesses of
20_memory.md rule R58. -/

/-- A loaded engine at an instruction boundary. -/
def loadedAt (pc : Addr) (cells : Memory) : State := { State.reset with PC := pc, S := true, M := cells }

/-- The state a step answers, if it answers one. -/
def afterStep (s : State) : Option State :=
  match step s with
  | .next t => some t
  | .fault _ => none
  | .refused _ => none

/-- The state a timing state answers, if it answers one. -/
def afterCycle (s : State) : Option State :=
  match stepCycle s with
  | .next t => some t
  | .fault _ => none
  | .refused _ => none

theorem step_of_afterStep {s t : State} (h : afterStep s = some t) : step s = .next t := by
  unfold afterStep at h
  cases hs : step s with
  | next u => rw [hs] at h; cases h; rfl
  | fault f => rw [hs] at h; cases h
  | refused r => rw [hs] at h; cases h

theorem stepCycle_of_afterCycle {s t : State} (h : afterCycle s = some t) : stepCycle s = .next t := by
  unfold afterCycle at h
  cases hs : stepCycle s with
  | next u => rw [hs] at h; cases h; rfl
  | fault f => rw [hs] at h; cases h
  | refused r => rw [hs] at h; cases h

theorem test_v1_and :
    afterStep ({ loadedAt 0x100 [(0x100, 0x200), (0x200, 0xFF)] with AC := 0xF0F } : State) = some
    { loadedAt 0x100 [(0x100, 0x200), (0x200, 0xFF)] with
      AC := 0xF, DR := 0xFF, AR := 0x200, PC := 0x101, IR := 0x200, profiler := ⟨5, 1, 2, 0⟩ } := by decide
theorem test_v4_and_indirect_high_bits :
    afterStep ({ loadedAt 0x100 [(0x100, 0x8201), (0x201, 0xF300), (0x300, 0x1234)] with AC := 0xFFFF } : State) = some
    { loadedAt 0x100 [(0x100, 0x8201), (0x201, 0xF300), (0x300, 0x1234)] with
      AC := 0x1234, DR := 0x1234, AR := 0x300, PC := 0x101, IR := 0x8201, I := true, profiler := ⟨6, 1, 3, 0⟩ } := by decide
theorem test_v6_add_carry :
    afterStep ({ loadedAt 0x100 [(0x100, 0x1200), (0x200, 0x1)] with AC := 0xFFFF } : State) = some
    { loadedAt 0x100 [(0x100, 0x1200), (0x200, 0x1)] with
      AC := 0x0, DR := 0x1, AR := 0x200, PC := 0x101, IR := 0x1200, E := true, profiler := ⟨5, 1, 2, 0⟩ } := by decide
theorem test_v7_add_signed_overflow :
    afterStep ({ loadedAt 0x100 [(0x100, 0x1200), (0x200, 0x1)] with AC := 0x7FFF, E := true } : State) = some
    { loadedAt 0x100 [(0x100, 0x1200), (0x200, 0x1)] with
      AC := 0x8000, E := false, DR := 0x1, AR := 0x200, PC := 0x101, IR := 0x1200, profiler := ⟨5, 1, 2, 0⟩ } := by decide
theorem test_v10_lda :
    afterStep ({ loadedAt 0x100 [(0x100, 0x2200), (0x200, 0x1234)] with AC := 0xFFFF, E := true } : State) = some
    { loadedAt 0x100 [(0x100, 0x2200), (0x200, 0x1234)] with
      AC := 0x1234, E := true, DR := 0x1234, AR := 0x200, PC := 0x101, IR := 0x2200, profiler := ⟨5, 1, 2, 0⟩ } := by decide
theorem test_v11_lda_pointer_to_itself :
    afterStep (loadedAt 0x100 [(0x100, 0xA201), (0x201, 0x201)] : State) = some
    { loadedAt 0x100 [(0x100, 0xA201), (0x201, 0x201)] with
      AC := 0x201, DR := 0x201, AR := 0x201, PC := 0x101, IR := 0xA201, I := true, profiler := ⟨6, 1, 3, 0⟩ } := by decide
theorem test_v12_sta :
    afterStep ({ loadedAt 0x100 [(0x100, 0x3200)] with AC := 0xBEEF } : State) = some
    { loadedAt 0x100 [(0x100, 0x3200), (0x200, 0xBEEF)] with
      AC := 0xBEEF, AR := 0x200, PC := 0x101, IR := 0x3200, profiler := ⟨4, 1, 1, 1⟩ } := by decide
theorem test_v13_sta_indirect :
    afterStep ({ loadedAt 0x100 [(0x100, 0xB201), (0x201, 0x300)] with AC := 0x42 } : State) = some
    { loadedAt 0x100 [(0x100, 0xB201), (0x201, 0x300), (0x300, 0x42)] with
      AC := 0x42, AR := 0x300, PC := 0x101, IR := 0xB201, I := true, profiler := ⟨5, 1, 2, 1⟩ } := by decide
theorem test_v15_bun_indirect :
    afterStep (loadedAt 0x100 [(0x100, 0xC201), (0x201, 0x8456)] : State) = some
    { loadedAt 0x100 [(0x100, 0xC201), (0x201, 0x8456)] with
      AR := 0x456, PC := 0x456, IR := 0xC201, I := true, profiler := ⟨5, 1, 2, 0⟩ } := by decide
theorem test_v16_bun_to_itself :
    afterStep (loadedAt 0x100 [(0x100, 0x4100)] : State) = some
    { loadedAt 0x100 [(0x100, 0x4100)] with
      AR := 0x100, IR := 0x4100, profiler := ⟨4, 1, 1, 0⟩ } := by decide
theorem test_v18_bsa_last_word :
    afterStep (loadedAt 0x100 [(0x100, 0x5FFF)] : State) = some
    { loadedAt 0x100 [(0x100, 0x5FFF), (0xFFF, 0x101)] with
      AR := 0xFFF, PC := 0x0, IR := 0x5FFF, profiler := ⟨4, 1, 1, 1⟩ } := by decide
theorem test_v19_bsa_indirect :
    afterStep (loadedAt 0x100 [(0x100, 0xD201), (0x201, 0x300)] : State) = some
    { loadedAt 0x100 [(0x100, 0xD201), (0x201, 0x300), (0x300, 0x101)] with
      AR := 0x300, PC := 0x301, IR := 0xD201, I := true, profiler := ⟨5, 1, 2, 1⟩ } := by decide
theorem test_v23_isz_indirect_skips :
    afterStep (loadedAt 0x100 [(0x100, 0xE201), (0x201, 0x300), (0x300, 0xFFFF)] : State) = some
    { loadedAt 0x100 [(0x100, 0xE201), (0x201, 0x300)] with
      AR := 0x300, PC := 0x102, IR := 0xE201, I := true, profiler := ⟨7, 1, 3, 1⟩ } := by decide
theorem test_v22_isz_no_skip :
    afterStep (loadedAt 0x100 [(0x100, 0x6200), (0x200, 0x7FFF)] : State) = some
    { loadedAt 0x100 [(0x100, 0x6200), (0x200, 0x8000)] with
      DR := 0x8000, AR := 0x200, PC := 0x101, IR := 0x6200, profiler := ⟨6, 1, 2, 1⟩ } := by decide
theorem test_v30_cla :
    afterStep ({ loadedAt 0x100 [(0x100, 0x7800)] with AC := 0x1234 } : State) = some
    { loadedAt 0x100 [(0x100, 0x7800)] with
      AC := 0x0, AR := 0x800, PC := 0x101, IR := 0x7800, profiler := ⟨4, 1, 1, 0⟩ } := by decide
theorem test_v31_cle :
    afterStep ({ loadedAt 0x100 [(0x100, 0x7400)] with E := true } : State) = some
    { loadedAt 0x100 [(0x100, 0x7400)] with
      E := false, AR := 0x400, PC := 0x101, IR := 0x7400, profiler := ⟨4, 1, 1, 0⟩ } := by decide
theorem test_v32_cma :
    afterStep ({ loadedAt 0x100 [(0x100, 0x7200)] with AC := 0xF0 } : State) = some
    { loadedAt 0x100 [(0x100, 0x7200)] with
      AC := 0xFF0F, AR := 0x200, PC := 0x101, IR := 0x7200, profiler := ⟨4, 1, 1, 0⟩ } := by decide
theorem test_v34_cme :
    afterStep (loadedAt 0x100 [(0x100, 0x7100)] : State) = some
    { loadedAt 0x100 [(0x100, 0x7100)] with
      AR := 0x100, PC := 0x101, IR := 0x7100, E := true, profiler := ⟨4, 1, 1, 0⟩ } := by decide
theorem test_v35_cme :
    afterStep ({ loadedAt 0x100 [(0x100, 0x7100)] with E := true } : State) = some
    { loadedAt 0x100 [(0x100, 0x7100)] with
      E := false, AR := 0x100, PC := 0x101, IR := 0x7100, profiler := ⟨4, 1, 1, 0⟩ } := by decide
theorem test_v36_cir :
    afterStep ({ loadedAt 0x100 [(0x100, 0x7080)] with AC := 0x8001, E := true } : State) = some
    { loadedAt 0x100 [(0x100, 0x7080)] with
      AC := 0xC000, E := true, AR := 0x80, PC := 0x101, IR := 0x7080, profiler := ⟨4, 1, 1, 0⟩ } := by decide
theorem test_v37_cir_bit_0_to_e :
    afterStep ({ loadedAt 0x100 [(0x100, 0x7080)] with AC := 0x1 } : State) = some
    { loadedAt 0x100 [(0x100, 0x7080)] with
      AC := 0x0, AR := 0x80, PC := 0x101, IR := 0x7080, E := true, profiler := ⟨4, 1, 1, 0⟩ } := by decide
theorem test_v39_cil :
    afterStep ({ loadedAt 0x100 [(0x100, 0x7040)] with AC := 0x4001, E := true } : State) = some
    { loadedAt 0x100 [(0x100, 0x7040)] with
      AC := 0x8003, E := false, AR := 0x40, PC := 0x101, IR := 0x7040, profiler := ⟨4, 1, 1, 0⟩ } := by decide
theorem test_v40_cil_bit_15_to_e :
    afterStep ({ loadedAt 0x100 [(0x100, 0x7040)] with AC := 0x8000 } : State) = some
    { loadedAt 0x100 [(0x100, 0x7040)] with
      AC := 0x0, AR := 0x40, PC := 0x101, IR := 0x7040, E := true, profiler := ⟨4, 1, 1, 0⟩ } := by decide
theorem test_v43_inc_wraps_and_keeps_e :
    afterStep ({ loadedAt 0x100 [(0x100, 0x7020)] with AC := 0xFFFF } : State) = some
    { loadedAt 0x100 [(0x100, 0x7020)] with
      AC := 0x0, AR := 0x20, PC := 0x101, IR := 0x7020, profiler := ⟨4, 1, 1, 0⟩ } := by decide
theorem test_v47_spa_negative :
    afterStep ({ loadedAt 0x100 [(0x100, 0x7010)] with AC := 0x8000 } : State) = some
    { loadedAt 0x100 [(0x100, 0x7010)] with
      AC := 0x8000, AR := 0x10, PC := 0x101, IR := 0x7010, profiler := ⟨4, 1, 1, 0⟩ } := by decide
theorem test_v57_spa_skip_wraps_pc :
    afterStep (loadedAt 0xFFF [(0xFFF, 0x7010)] : State) = some
    { loadedAt 0xFFF [(0xFFF, 0x7010)] with
      AR := 0x10, PC := 0x1, IR := 0x7010, profiler := ⟨4, 1, 1, 0⟩ } := by decide
theorem test_v48_sna_negative :
    afterStep ({ loadedAt 0x100 [(0x100, 0x7008)] with AC := 0xFFFF } : State) = some
    { loadedAt 0x100 [(0x100, 0x7008)] with
      AC := 0xFFFF, AR := 0x8, PC := 0x102, IR := 0x7008, profiler := ⟨4, 1, 1, 0⟩ } := by decide
theorem test_v50_sna_positive :
    afterStep ({ loadedAt 0x100 [(0x100, 0x7008)] with AC := 0x7FFF } : State) = some
    { loadedAt 0x100 [(0x100, 0x7008)] with
      AC := 0x7FFF, AR := 0x8, PC := 0x101, IR := 0x7008, profiler := ⟨4, 1, 1, 0⟩ } := by decide
theorem test_v51_sza_zero :
    afterStep ({ loadedAt 0x100 [(0x100, 0x7004)] with E := true } : State) = some
    { loadedAt 0x100 [(0x100, 0x7004)] with
      E := true, AR := 0x4, PC := 0x102, IR := 0x7004, profiler := ⟨4, 1, 1, 0⟩ } := by decide
theorem test_v52_sza_nonzero :
    afterStep ({ loadedAt 0x100 [(0x100, 0x7004)] with AC := 0x1 } : State) = some
    { loadedAt 0x100 [(0x100, 0x7004)] with
      AC := 0x1, AR := 0x4, PC := 0x101, IR := 0x7004, profiler := ⟨4, 1, 1, 0⟩ } := by decide
theorem test_v53_sze_skips :
    afterStep (loadedAt 0x100 [(0x100, 0x7002)] : State) = some
    { loadedAt 0x100 [(0x100, 0x7002)] with
      AR := 0x2, PC := 0x102, IR := 0x7002, profiler := ⟨4, 1, 1, 0⟩ } := by decide
theorem test_v54_sze_stays :
    afterStep ({ loadedAt 0x100 [(0x100, 0x7002)] with E := true } : State) = some
    { loadedAt 0x100 [(0x100, 0x7002)] with
      E := true, AR := 0x2, PC := 0x101, IR := 0x7002, profiler := ⟨4, 1, 1, 0⟩ } := by decide
theorem test_v55_hlt :
    afterStep (loadedAt 0x100 [(0x100, 0x7001)] : State) = some
    { loadedAt 0x100 [(0x100, 0x7001)] with
      AR := 0x1, PC := 0x101, IR := 0x7001, S := false, profiler := ⟨4, 1, 1, 0⟩ } := by decide
theorem test_v56_hlt_with_request :
    afterStep ({ loadedAt 0x100 [(0x100, 0x7001)] with IEN := true, FGO := true } : State) = some
    { loadedAt 0x100 [(0x100, 0x7001)] with
      IEN := true, FGO := true, AR := 0x1, PC := 0x101, IR := 0x7001, S := false, R := true, profiler := ⟨4, 1, 1, 0⟩ } := by decide
theorem test_v60_inp :
    afterStep ({ loadedAt 0x100 [(0x100, 0xF800)] with AC := 0x1200, INPR := 0x41, FGI := true } : State) = some
    { loadedAt 0x100 [(0x100, 0xF800)] with
      AC := 0x1241, INPR := 0x41, FGI := false, AR := 0x800, PC := 0x101, IR := 0xF800, I := true, profiler := ⟨4, 1, 1, 0⟩ } := by decide
theorem test_v70_inp_then_interrupt_cycle :
    afterStep ({ loadedAt 0x100 [(0x100, 0xF800)] with IEN := true, FGI := true, INPR := 0x7A } : State) = some
    { loadedAt 0x100 [(0x0, 0x101), (0x100, 0xF800)] with
      IEN := false, FGI := false, INPR := 0x7A, AC := 0x7A, PC := 0x1, IR := 0xF800, TR := 0x101, I := true, profiler := ⟨7, 1, 1, 1⟩ } := by decide
theorem test_v62_out :
    afterStep ({ loadedAt 0x100 [(0x100, 0xF400)] with AC := 0x1241, FGO := true } : State) = some
    { loadedAt 0x100 [(0x100, 0xF400)] with
      AC := 0x1241, FGO := false, AR := 0x400, PC := 0x101, IR := 0xF400, OUTR := 0x41, I := true, profiler := ⟨4, 1, 1, 0⟩ } := by decide
theorem test_v63_ski_ready :
    afterStep ({ loadedAt 0x100 [(0x100, 0xF200)] with FGI := true } : State) = some
    { loadedAt 0x100 [(0x100, 0xF200)] with
      FGI := true, AR := 0x200, PC := 0x102, IR := 0xF200, I := true, profiler := ⟨4, 1, 1, 0⟩ } := by decide
theorem test_v64_ski_not_ready :
    afterStep (loadedAt 0x100 [(0x100, 0xF200)] : State) = some
    { loadedAt 0x100 [(0x100, 0xF200)] with
      AR := 0x200, PC := 0x101, IR := 0xF200, I := true, profiler := ⟨4, 1, 1, 0⟩ } := by decide
theorem test_v65_sko_ready :
    afterStep ({ loadedAt 0x100 [(0x100, 0xF100)] with FGO := true } : State) = some
    { loadedAt 0x100 [(0x100, 0xF100)] with
      FGO := true, AR := 0x100, PC := 0x102, IR := 0xF100, I := true, profiler := ⟨4, 1, 1, 0⟩ } := by decide
theorem test_v66_sko_not_ready :
    afterStep (loadedAt 0x100 [(0x100, 0xF100)] : State) = some
    { loadedAt 0x100 [(0x100, 0xF100)] with
      AR := 0x100, PC := 0x101, IR := 0xF100, I := true, profiler := ⟨4, 1, 1, 0⟩ } := by decide
theorem test_v68_ion_no_request_yet :
    afterStep ({ loadedAt 0x100 [(0x100, 0xF080)] with FGI := true } : State) = some
    { loadedAt 0x100 [(0x100, 0xF080)] with
      FGI := true, AR := 0x80, PC := 0x101, IR := 0xF080, IEN := true, I := true, profiler := ⟨4, 1, 1, 0⟩ } := by decide
theorem test_v69_iof :
    afterStep ({ loadedAt 0x100 [(0x100, 0xF040)] with IEN := true } : State) = some
    { loadedAt 0x100 [(0x100, 0xF040)] with
      IEN := false, AR := 0x40, PC := 0x101, IR := 0xF040, I := true, profiler := ⟨4, 1, 1, 0⟩ } := by decide
theorem test_v81_decode_error :
    afterStep (loadedAt 0x100 [(0x100, 0x7003)] : State) = some
    { loadedAt 0x100 [(0x100, 0x7003)] with
      AR := 0x3, PC := 0x101, IR := 0x7003, S := false, ERR := some (.decodeError 0x7003 0x100), profiler := ⟨4, 0, 1, 0⟩ } := by decide
theorem test_v84_decode_error_io :
    afterStep (loadedAt 0x100 [(0x100, 0xF820)] : State) = some
    { loadedAt 0x100 [(0x100, 0xF820)] with
      AR := 0x820, PC := 0x101, IR := 0xF820, S := false, I := true, ERR := some (.decodeError 0xF820 0x100), profiler := ⟨4, 0, 1, 0⟩ } := by decide
theorem test_v86_decode_error_wins_over_request :
    afterStep ({ loadedAt 0x100 [(0x100, 0x7FFF)] with IEN := true, FGI := true } : State) = some
    { loadedAt 0x100 [(0x100, 0x7FFF)] with
      IEN := true, FGI := true, AR := 0xFFF, PC := 0x101, IR := 0x7FFF, S := false, ERR := some (.decodeError 0x7FFF 0x100), profiler := ⟨4, 0, 1, 0⟩ } := by decide

/-! ### Interrupts, the host interface and reset (95_test_vectors.md section 6) -/

/-- V90: the last state of an ADD begins with FGI = 1 and IEN = 1, so it sets R. -/
theorem test_v90_request_in_last_state :
    (afterCycle { loadedAt 0x101 [(0x100, 0x1200), (0x200, 0x0005)] with
      IEN := true, FGI := true, AC := 0x0001, DR := 0x0005, AR := 0x200, IR := 0x1200, SC := 4 }).map
      (fun t => (t.R, t.SC, t.AC, t.PC)) = some (true, 0, 0x0006, 0x101) := by decide

/-- V91: IOF does not cancel the request its own last state finds. -/
theorem test_v91_iof_with_request :
    (afterStep { loadedAt 0x100 [(0x100, 0xF040), (0x101, 0x7001)] with IEN := true, FGI := true }).map
      (fun t => (t.M.read 0, t.PC, t.TR, t.AR, t.IEN, t.R)) = some (0x0101, 0x001, 0x0101, 0x000, false, false) := by
  decide

/-- V93: the longest step, ISZ I and the interrupt cycle, takes 10 timing states. -/
theorem test_v93_longest_step :
    (afterStep { loadedAt 0x100 [(0x100, 0xE201), (0x201, 0x0300), (0x300, 0xFFFE)] with IEN := true, FGO := true }).map
      (fun t => (t.profiler.cycles, t.M.read 0, t.PC, t.DR)) = some (10, 0x0101, 0x001, 0xFFFF) := by decide

/-- V97: before a load nothing happens. -/
theorem test_v97_reset_is_halted : afterStep State.reset = some State.reset ∧ afterCycle State.reset = some State.reset := by
  decide

/-- The word placed by `withFetchWord` is the one the next step runs. -/
theorem test_withFetchWord_runs :
    (afterStep (State.reset.withFetchWord 16 0x7200)).map (fun t => (t.AC, t.PC, t.IR)) = some (0xFFFF, 1, 0x7200) := by
  decide

/-- The reason a load fails, if it does. -/
def loadFailure (program : List Nat) (data : List (Nat × Nat)) (origin : Nat) : Option EngineError :=
  match load program data origin with
  | .ok _ => none
  | .error e => some e

/-- The memory and PC a load leaves, if it succeeds. -/
def loadResult (program : List Nat) (data : List (Nat × Nat)) (origin : Nat) : Option (Memory × Addr) :=
  match load program data origin with
  | .ok t => some (t.M, t.PC)
  | .error _ => none

theorem test_v101_origin : loadFailure [0x7001] [] 0x1000 = some (.loadError .originOutOfRange) := by decide
theorem test_v102_program : loadFailure [0x7800, 0x7001] [] 0xFFF = some (.loadError .programTooLong) := by decide
theorem test_v103_data_address :
    loadFailure [0x7001] [(0x1000, 0x0001)] 0x000 = some (.loadError .dataAddressOutOfRange) := by decide
theorem test_v104_word : loadFailure [0x10000] [] 0x000 = some (.loadError .wordTooLarge) := by decide
theorem test_v105_load_last_word : loadResult [0x7001] [] 0xFFF = some ([(0xFFF, 0x7001)], 0xFFF) := by decide
theorem test_v106_data_wins :
    loadResult [0x7001, 0x7001] [(0x001, 0x7800), (0x001, 0x7400)] 0x000 =
      some ([(0x000, 0x7001), (0x001, 0x7400)], 0x000) := by decide

/-- V108: names are matched with their case. -/
theorem test_v108_read_register :
    readRegister "ac" State.reset = .error (.unknownRegister "ac") ∧
    readRegister "D" State.reset = .error (.unknownRegister "D") ∧
    readRegister "M" State.reset = .error (.unknownRegister "M") ∧
    readRegister "PC" (loadedAt 0xFFF []) = .ok 0x0FFF := by
  refine ⟨?_, ?_, ?_, ?_⟩ <;> rfl

/-- 95_test_vectors.md 1.8: the bound of `read_memory`. -/
theorem test_read_memory_bound :
    readMemory 0xFFE 2 (loadedAt 0 [(0xFFF, 0x1234)]) = .ok [0x0000, 0x1234] ∧
    readMemory 0xFFF 2 State.reset = .error (.addressOutOfRange 0xFFF 2) ∧
    readMemory 0x1000 0 State.reset = .ok [] ∧
    readMemory 0x1000 1 State.reset = .error (.addressOutOfRange 0x1000 1) := by
  refine ⟨?_, ?_, ?_, ?_⟩ <;> rfl

/-! ### For every obligation with hypotheses, a case that meets them

`witness_<Name>` belongs to `Obligations.<Name>`. Where an obligation has several clauses, the witness meets each, at the
ends of its range. Obligations that are not named here have no hypothesis. -/

theorem witness_EncodeDecodeRoundTrip :
    decode 0xEFFF = .ok (.isz true 0xFFF) ∧ decode 0x7001 = .ok .hlt ∧ decode 0xF040 = .ok .iof := by decide

theorem witness_IllegalWordsAreExactlyThose :
    decode 0x7000 = .error .registerReferenceSelector ∧ decode 0xF020 = .error .inputOutputSelector ∧
    onlySelectorBit 0x7800 11 ∧ onlySelectorBit 0x7001 0 ∧ onlySelectorBit 0xF040 6 ∧ onlySelectorBit 0xF020 5 := by
  unfold onlySelectorBit
  decide

/-- An engine ready to fetch `w` at the last address. -/
def fetching (w : Word) : State := loadedAt 0xFFF [(0xFFF, w)]

theorem witness_StepRunsDecodedInstruction :
    readyToFetch (fetching 0x7020) ∧ decode ((fetching 0x7020).M.read (fetching 0x7020).PC.toNat) = .ok .inc := by
  unfold readyToFetch
  decide

theorem witness_StepEndsAtBoundary :
    ∃ t, step (fetching 0x7020) = .next t ∧ t.SC = 0 ∧ t.R = false :=
  ⟨_, rfl, by decide, by decide⟩

theorem witness_HaltedEngineStays : State.reset.S = false := by decide

theorem witness_FetchAndDecodeStates :
    (loadedAt 0x100 []).S = true ∧ (loadedAt 0x100 []).R = false ∧ (loadedAt 0x100 []).SC = 0 ∧
    ({ loadedAt 0x100 [] with SC := 1 } : State).SC = 1 ∧ ({ loadedAt 0x100 [] with SC := 2 } : State).SC = 2 := by
  decide

/-- An engine about to perform the indirect state of `AND 201 I`. -/
def atIndirect : State := { loadedAt 0x101 [(0x201, 0xF300)] with SC := 3, I := true, IR := 0x8201, AR := 0x201 }

theorem witness_IndirectStateLoadsPointer :
    atIndirect.S = true ∧ atIndirect.R = false ∧ atIndirect.SC = 3 ∧ atIndirect.I = true ∧
    atIndirect.IR.extractLsb' 12 3 ≠ 7 := by decide

/-- An engine about to perform phase `p` of `i`. -/
def phaseState (i : Instr) (indirect : Bool) (p : Nat) : State :=
  { loadedAt 0x101 [] with
    IR := encode i, I := indirect, SC := BitVec.ofNat 4 (3 + (if indirect then 1 else 0) + p), AR := 0x200 }

theorem witness_AndMasksAccumulator :
    inPhase (.and false 0x000) false 0 (phaseState (.and false 0x000) false 0) ∧
    inPhase (.and true 0xFFF) true 0 (phaseState (.and true 0xFFF) true 0) ∧
    inPhase (.and false 0x000) false 1 (phaseState (.and false 0x000) false 1) ∧
    inPhase (.and true 0xFFF) true 1 (phaseState (.and true 0xFFF) true 1) := by
  unfold inPhase
  decide

theorem witness_AddSumsAndCarries :
    inPhase (.add false 0x000) false 0 (phaseState (.add false 0x000) false 0) ∧
    inPhase (.add true 0xFFF) true 0 (phaseState (.add true 0xFFF) true 0) ∧
    inPhase (.add false 0x000) false 1 (phaseState (.add false 0x000) false 1) ∧
    inPhase (.add true 0xFFF) true 1 (phaseState (.add true 0xFFF) true 1) := by
  unfold inPhase
  decide

theorem witness_LdaLoadsAccumulator :
    inPhase (.lda false 0x000) false 0 (phaseState (.lda false 0x000) false 0) ∧
    inPhase (.lda true 0xFFF) true 0 (phaseState (.lda true 0xFFF) true 0) ∧
    inPhase (.lda false 0x000) false 1 (phaseState (.lda false 0x000) false 1) ∧
    inPhase (.lda true 0xFFF) true 1 (phaseState (.lda true 0xFFF) true 1) := by
  unfold inPhase
  decide

/-- A memory with a word at each end of the bank. -/
def twoWords : Memory := [(0x000, 0x0001), (0xFFF, 0xFFFF)]

theorem witness_StaStoresAccumulator :
    inPhase (.sta false 0x000) false 0 (phaseState (.sta false 0x000) false 0) ∧
    inPhase (.sta true 0xFFF) true 0 (phaseState (.sta true 0xFFF) true 0) ∧
    (phaseState (.sta true 0xFFF) true 0).M.wf = true ∧ (loadedAt 0x100 twoWords).M.wf = true := by
  unfold inPhase
  decide

theorem witness_BunBranches :
    inPhase (.bun false 0x000) false 0 (phaseState (.bun false 0x000) false 0) ∧
    inPhase (.bun true 0xFFF) true 0 (phaseState (.bun true 0xFFF) true 0) := by
  unfold inPhase
  decide

theorem witness_BsaSavesAndBranches :
    inPhase (.bsa false 0x000) false 0 (phaseState (.bsa false 0x000) false 0) ∧
    inPhase (.bsa true 0xFFF) true 0 (phaseState (.bsa true 0xFFF) true 0) ∧
    (phaseState (.bsa true 0xFFF) true 0).M.wf = true ∧ (loadedAt 0x100 twoWords).M.wf = true := by
  unfold inPhase
  decide

/-- The three phases of ISZ; the skip is taken where DR is 0, and in the whole instruction where the word is 0xFFFF. -/
theorem witness_IszIncrementsAndSkips :
    inPhase (.isz false 0x000) false 0 (phaseState (.isz false 0x000) false 0) ∧
    inPhase (.isz true 0xFFF) true 0 (phaseState (.isz true 0xFFF) true 0) ∧
    inPhase (.isz false 0x000) false 1 (phaseState (.isz false 0x000) false 1) ∧
    inPhase (.isz true 0xFFF) true 1 (phaseState (.isz true 0xFFF) true 1) ∧
    inPhase (.isz false 0x000) false 2 (phaseState (.isz false 0x000) false 2) ∧
    inPhase (.isz true 0xFFF) true 2 (phaseState (.isz true 0xFFF) true 2) ∧
    (phaseState (.isz true 0xFFF) true 2).M.wf = true ∧ (phaseState (.isz true 0xFFF) true 2).DR = 0 ∧
    (loadedAt 0x100 twoWords).M.wf = true ∧ operand false 0xFFF (loadedAt 0x100 twoWords) = 0xFFFF ∧
    operand false 0x000 (loadedAt 0x100 twoWords) = 0x0001 := by
  unfold inPhase
  decide

theorem witness_SubroutineCallReturns : (loadedAt 0xFFF twoWords).M.wf = true := by decide

/-- SPA and SNA skip at the ends of their ranges, from the last address; SZA does not at 1. -/
theorem witness_SkipConditions :
    ∃ t, exec .spa { loadedAt 0xFFF [] with AC := 0x7FFF } = .next t ∧ t.PC = 0x000 ∧
      ∃ u, exec .sna { loadedAt 0xFFF [] with AC := 0x8000 } = .next u ∧ u.PC = 0x000 ∧
        ∃ v, exec .sza { loadedAt 0xFFF [] with AC := 0x0001 } = .next v ∧ v.PC = 0xFFF :=
  ⟨_, rfl, by decide, _, rfl, by decide, _, rfl, by decide⟩

theorem witness_IonIofSwitchInterrupts :
    (loadedAt 0x100 []).IEN = false ∧ (loadedAt 0x100 []).R = false ∧
    ({ loadedAt 0x100 [] with IEN := true, FGI := true } : State).IEN = true ∧
    ({ loadedAt 0x100 [] with IEN := true, FGI := true } : State).FGI = true ∧
    ({ loadedAt 0x100 [] with IEN := true, FGO := true } : State).FGO = true := by decide

/-- An engine about to perform T3 of `w`, fetched from the last address. -/
def atT3 (w : Word) : State := { loadedAt 0x000 [(0xFFF, w)] with SC := 3, IR := w, I := indirectBit w, AR := addressField w }

theorem witness_DecodeErrorStateHalts :
    (atT3 0x7000).S = true ∧ (atT3 0x7000).R = false ∧ (atT3 0x7000).SC = 3 ∧
    decode (atT3 0x7000).IR = .error .registerReferenceSelector ∧
    decode (atT3 0xFFFF).IR = .error .inputOutputSelector := by decide

theorem witness_IllegalWordHaltsPrecisely :
    readyToFetch (fetching 0x7FFF) ∧
    decode ((fetching 0x7FFF).M.read (fetching 0x7FFF).PC.toNat) = .error .registerReferenceSelector ∧
    decode ((fetching 0xF000).M.read (fetching 0xF000).PC.toNat) = .error .inputOutputSelector := by
  unfold readyToFetch
  decide

/-- The last state of a HLT with a request pending, and RT2. -/
theorem witness_RequestRaisedOnlyAtBoundary :
    (∃ t, stepCycle { atT3 0x7001 with IEN := true, FGI := true } = .next t ∧ (atT3 0x7001).R = false ∧ t.R = true) ∧
    (∃ t, stepCycle { loadedAt 0x000 [] with R := true, SC := 2 } = .next t ∧ t.R = false) :=
  ⟨⟨_, rfl, by decide, by decide⟩, ⟨_, rfl, by decide⟩⟩

/-- An engine about to perform interrupt-cycle state `sc`. -/
def interrupting (sc : SeqCount) : State := { loadedAt 0xFFF twoWords with R := true, IEN := true, FGI := true, SC := sc }

theorem witness_InterruptCycleStates :
    (interrupting 0).S = true ∧ (interrupting 0).R = true ∧ (interrupting 0).SC = 0 ∧ (interrupting 1).SC = 1 ∧
    (interrupting 1).M.wf = true ∧ (interrupting 2).SC = 2 := by decide

theorem witness_InterruptEntrySavesPc :
    (interrupting 0).S = true ∧ (interrupting 0).R = true ∧ (interrupting 0).SC = 0 ∧ (interrupting 0).M.wf = true := by
  decide

theorem witness_HandlerReturnRestoresPc :
    (interrupting 0).S = true ∧ (interrupting 0).R = true ∧ (interrupting 0).SC = 0 ∧ (interrupting 0).M.wf = true ∧
    ∃ t, step (interrupting 0) = .next t ∧ (loadedAt 0x027 [(0x000, 0x0FFF)]).M.read 0 = t.M.read 0 :=
  ⟨by decide, by decide, by decide, by decide, _, rfl, by decide⟩

/-- T2, and phase 0 of an ADD. -/
theorem witness_HostInputWaitsForBoundary :
    (∃ t, stepCycle { loadedAt 0x101 [] with SC := 2, IR := 0x1200 } = .next t ∧ t.SC ≠ 0) ∧
    (∃ t, stepCycle (phaseState (.add true 0xFFF) true 0) = .next t ∧ t.SC ≠ 0) ∧
    (phaseState (.add true 0xFFF) true 0).S = true ∧ (phaseState (.add true 0xFFF) true 0).R = false :=
  ⟨⟨_, rfl, by decide⟩, ⟨_, rfl, by decide⟩, by decide, by decide⟩

/-- One timing state for each clause: T1, RT0, CMA, phase 0 of LDA, CME, OUT. -/
theorem witness_RegistersWrittenOnlyByTheirStates :
    (∃ t, stepCycle { fetching 0x7020 with SC := 1, AR := 0xFFF } = .next t ∧ t.IR ≠ (fetching 0x7020).IR) ∧
    (∃ t, stepCycle (interrupting 0) = .next t ∧ t.TR ≠ (interrupting 0).TR) ∧
    (∃ t, stepCycle (atT3 0x7200) = .next t ∧ t.AC ≠ (atT3 0x7200).AC) ∧
    (∃ t, stepCycle { atT3 0x2FFF with AR := 0xFFF } = .next t ∧ t.DR ≠ (atT3 0x2FFF).DR) ∧
    (∃ t, stepCycle (atT3 0x7100) = .next t ∧ t.E ≠ (atT3 0x7100).E) ∧
    (∃ t, stepCycle { atT3 0xF400 with AC := 0x0041 } = .next t ∧ t.OUTR ≠ (atT3 0xF400).OUTR) :=
  ⟨⟨_, rfl, by decide⟩, ⟨_, rfl, by decide⟩, ⟨_, rfl, by decide⟩, ⟨_, rfl, by decide⟩, ⟨_, rfl, by decide⟩,
    ⟨_, rfl, by decide⟩⟩

theorem witness_RunFlagWriters :
    (∃ t, (HostMove.load [0x7001] [] 0xFFF).perform State.reset = .next t ∧ State.reset.S = false ∧ t.S = true) ∧
    (∃ t, load [0x7001] [] 0xFFF = .ok t) ∧
    (∃ t, stepCycle (atT3 0x7001) = .next t ∧ (atT3 0x7001).S = true ∧ t.S = false) ∧
    (∃ t, stepCycle (atT3 0x7000) = .next t ∧ t.S = false) ∧
    (∃ t, stepCycle (atT3 0x7800) = .next t ∧ t.S = true) ∧
    (∃ t, exec .hlt (loadedAt 0x100 []) = .next t) :=
  ⟨⟨_, rfl, by decide, by decide⟩, ⟨_, rfl⟩, ⟨_, rfl, by decide, by decide⟩, ⟨_, rfl, by decide⟩, ⟨_, rfl, by decide⟩,
    ⟨_, rfl⟩⟩

theorem witness_IoFlagWriters :
    (∃ t, (HostMove.input 0xFF).perform State.reset = .next t ∧ t.FGI = true ∧ t.INPR ≠ State.reset.INPR) ∧
    (∃ t, HostMove.outputReady.perform State.reset = .next t ∧ t.FGO = true) ∧
    (∃ t, stepCycle { atT3 0xF800 with FGI := true } = .next t ∧ t.FGI = false) ∧
    (∃ t, stepCycle { atT3 0xF400 with FGO := true } = .next t ∧ t.FGO = false) ∧
    (∃ t, stepCycle (atT3 0xF080) = .next t ∧ (atT3 0xF080).IEN = false ∧ t.IEN = true) ∧
    (∃ t, stepCycle { atT3 0xF040 with IEN := true } = .next t ∧ t.IEN = false) ∧
    (∃ t, stepCycle (interrupting 2) = .next t ∧ (interrupting 2).IEN = true ∧ t.IEN = false) :=
  ⟨⟨_, rfl, by decide, by decide⟩, ⟨_, rfl, by decide⟩, ⟨_, rfl, by decide⟩, ⟨_, rfl, by decide⟩,
    ⟨_, rfl, by decide, by decide⟩, ⟨_, rfl, by decide⟩, ⟨_, rfl, by decide, by decide⟩⟩

theorem witness_IdleRegistersDoNotInterfere :
    (∃ t, exec .out (loadedAt 0x100 []) = .next t) ∧ (∃ t, exec (.isz true 0xFFF) (loadedAt 0x100 twoWords) = .next t) ∧
    Instr.out ≠ Instr.inp :=
  ⟨⟨_, rfl⟩, ⟨_, rfl⟩, by decide⟩

/-- STA and ISZ of the word fetched next, at the last address; a later fetch after BSA; an interrupt cycle about to begin,
and one that follows a store to the entry address. -/
theorem witness_FetchSeesPrecedingStore :
    (fetching 0x3FFF).M.wf = true ∧ (fetching 0x3FFF).S = true ∧ (fetching 0x3FFF).R = false ∧
    (fetching 0x3FFF).IEN = false ∧ (fetching 0x3FFF).PC = ea false 0xFFF (fetching 0x3FFF) ∧
    (fetching 0x0FFF).PC = ea true 0xFFF (fetching 0x0FFF) ∧
    (∃ t, exec (.isz false 0xFFF) (fetching 0x6FFF) = .next t ∧ t.PC = ea false 0xFFF (fetching 0x6FFF)) ∧
    (∃ t, exec (.bsa false 0xFFF) (fetching 0x5FFF) = .next t ∧
      ({ t with PC := 0xFFF } : State).M = t.M ∧ readyToFetch { t with PC := 0xFFF }) ∧
    (∃ t, exec (.sta false 0x001) { fetching 0x3001 with IEN := true, FGI := true } = .next t ∧
      t.S = true ∧ t.R = true ∧ t.SC = 0 ∧ (0x001 : Addr) = 1) ∧
    (interrupting 0).M.wf = true ∧ (interrupting 0).S = true ∧ (interrupting 0).R = true ∧ (interrupting 0).SC = 0 := by
  refine ⟨by decide, by decide, by decide, by decide, by decide, by decide, ⟨_, rfl, by decide⟩, ⟨_, rfl, rfl, ?_⟩,
    ⟨_, rfl, by decide, by decide, by decide, by decide⟩, by decide, by decide, by decide, by decide⟩
  unfold readyToFetch
  decide

/-- The invariant holds of a loaded engine, so it is not a property of the reset state alone. -/
theorem inv_loaded : (loadedAt 0xFFF twoWords).Inv := by
  constructor <;> simp [loadedAt, State.reset, twoWords, Memory.wf, Config.memWords]

/-- It holds in the middle of the interrupt cycle too. -/
theorem inv_after_RT0 : (rt0 (interrupting 0)).Inv := by
  constructor <;> simp [interrupting, loadedAt, State.reset, twoWords, Memory.wf, Config.memWords]

theorem witness_TimingStateKeepsTheInvariant : (loadedAt 0xFFF twoWords).Inv ∧ (rt0 (interrupting 0)).Inv :=
  ⟨inv_loaded, inv_after_RT0⟩

theorem witness_StepKeepsTheInvariant :
    (loadedAt 0xFFF twoWords).Inv ∧ ∃ t, step (loadedAt 0xFFF twoWords) = .next t ∧ t.S = false :=
  ⟨inv_loaded, _, rfl, by decide⟩

theorem witness_HostMovesKeepTheInvariant : (loadedAt 0xFFF twoWords).Inv := inv_loaded

theorem witness_NoStatePastTheLast :
    (loadedAt 0x100 []).S = true ∧ 7 ≤ ({ loadedAt 0x100 [] with SC := 7 } : State).SC.toNat ∧
    7 ≤ ({ loadedAt 0x100 [] with SC := 15 } : State).SC.toNat := by decide

theorem witness_LoadFailsExactlyOnBadImages :
    load [0x7001] [] 0x1000 = .error (.loadError .originOutOfRange) ∧
    load [0x10000] [] 0x000 = .error (.loadError .wordTooLarge) ∧ (∃ t, load [0xFFFF] [(0xFFF, 0xFFFF)] 0xFFF = .ok t) :=
  ⟨rfl, rfl, _, rfl⟩

theorem witness_LoadLeavesTheImage :
    (∃ t, load [0x7001, 0x7001] [(0x001, 0x7800), (0x001, 0x7400)] 0x000 = .ok t) ∧ ∃ t, load [0x7001] [] 0xFFF = .ok t :=
  ⟨⟨_, rfl⟩, _, rfl⟩

theorem witness_ObserversAnswer :
    "ac" ∉ ["AC", "DR", "AR", "PC", "IR", "TR", "OUTR", "INPR", "SC", "E", "S", "IEN", "R", "FGI", "FGO", "I"] ∧
    4096 < 0xFFF + 2 ∧ 0xFFF + 1 ≤ 4096 ∧ State.reset.profiler.instructions = 0 ∧
    (∃ t, step (fetching 0x7020) = .next t ∧ t.profiler.instructions ≠ 0) :=
  ⟨by decide, by decide, by decide, by decide, _, rfl, by decide⟩

theorem witness_MemoryBankContract :
    (∃ e, Memory.bankRead twoWords 0x1000 = .error e) ∧ 0xFFF ≤ 0xFFF ∧ Memory.wf twoWords = true :=
  ⟨⟨_, rfl⟩, by decide, by decide⟩

theorem witness_CountersCountTheEvents : ∃ t, stepCycle (phaseState (.isz true 0xFFF) true 2) = .next t :=
  ⟨_, rfl⟩

/-- Each storing state, at both values of I, and states that store nothing: RT0 and T0. -/
theorem witness_storesNow :
    storesNow (phaseState (.sta false 0x000) false 0) ∧ storesNow (phaseState (.bsa true 0xFFF) true 0) ∧
    storesNow (phaseState (.isz true 0xFFF) true 2) ∧ storesNow (interrupting 1) ∧
    ¬ storesNow (interrupting 0) ∧ ¬ storesNow (fetching 0x3000) := by
  refine ⟨⟨by decide, .inr ⟨by decide, _, 0, rfl, rfl, by decide⟩⟩, ⟨by decide, .inr ⟨by decide, _, 0, rfl, rfl, by decide⟩⟩,
    ⟨by decide, .inr ⟨by decide, _, 2, rfl, rfl, by decide⟩⟩, ⟨by decide, .inl (by decide)⟩, ?_, ?_⟩
  · rintro ⟨-, ⟨-, h⟩ | ⟨h, -⟩⟩
    · exact absurd h (by decide)
    · exact absurd h (by decide)
  · rintro ⟨-, ⟨h, -⟩ | ⟨-, i, p, hd, hp, -⟩⟩
    · exact absurd h (by decide)
    · have hi : Except.ok (Instr.and false 0x000) = Except.ok i := hd
      cases hi
      cases hp

/-- A state that writes memory and PC, the indirect state in front of a store, and the DecodeError state. -/
theorem witness_CycleReportIsTrue :
    (∃ t report, stepCycleReport (phaseState (.bsa true 0xFFF) true 0) = .next (t, report) ∧ report.written = [0x200]) ∧
    (∃ t report, stepCycleReport { atT3 0xB201 with I := true } = .next (t, report) ∧ report.written = []) ∧
    (∃ t report, stepCycleReport (atT3 0x7000) = .next (t, report) ∧ report.error ≠ none) :=
  ⟨⟨_, _, rfl, by decide⟩, ⟨_, _, rfl, by decide⟩, ⟨_, _, rfl, by decide⟩⟩

/-- A run that ends at HLT before its limit, one that ends at its limit, one that halts on an illegal word, one on a halted
engine, and one that meets the fault. -/
theorem witness_RunRepeatsSteps :
    (∃ t report, run 2 (fetching 0x7001) = .next (t, report) ∧ report.completed = 1 ∧ t.S = false ∧ report.error = none) ∧
    (∃ t report, run 1 (fetching 0x4FFF) = .next (t, report) ∧ report.completed = 1 ∧ t.S = true) ∧
    (∃ t report, run 1 (fetching 0x7000) = .next (t, report) ∧ report.completed = 0 ∧
      report.error = some (.decodeError 0x7000 0xFFF)) ∧
    (fetching 0x7001).S = true ∧ State.reset.S = false ∧ (∃ t, runLimited 1 (fetching 0x7001) = .next t) ∧
    (∃ t, stepsTo 1 (fetching 0x7001) t ∧ t.S = false) ∧ (∃ t, RunReturns (fetching 0x7001) t) ∧
    ∃ f, runLimited 1 { loadedAt 0x100 [] with SC := 7 } = .fault f :=
  ⟨⟨_, _, rfl, by decide, by decide, by decide⟩, ⟨_, _, rfl, by decide, by decide⟩,
    ⟨_, _, rfl, by decide, by decide⟩, by decide, by decide, ⟨_, rfl⟩, ⟨_, ⟨by decide, _, rfl, rfl⟩, by decide⟩,
    ⟨_, 1, rfl, by decide⟩, ⟨_, rfl⟩⟩

/-- A boundary at the last address, and one timing state for each way PC changes: T1, RT1, a branch and a skip. -/
theorem witness_ControlLeavesSequenceOnlyThere :
    readyToFetch (fetching 0x7020) ∧
    (∃ t, stepCycle { fetching 0x7020 with SC := 1, AR := 0xFFF } = .next t ∧ t.PC ≠ (fetching 0x7020).PC) ∧
    (∃ t, stepCycle (interrupting 1) = .next t ∧ t.PC ≠ (interrupting 1).PC) ∧
    (∃ t, stepCycle (phaseState (.bun false 0x200) false 0) = .next t ∧
      t.PC ≠ (phaseState (.bun false 0x200) false 0).PC) ∧
    (∃ t, stepCycle (atT3 0x7004) = .next t ∧ t.PC ≠ (atT3 0x7004).PC) := by
  refine ⟨?_, ⟨_, rfl, by decide⟩, ⟨_, rfl, by decide⟩, ⟨_, rfl, by decide⟩, ⟨_, rfl, by decide⟩⟩
  unfold readyToFetch
  decide

end Sys2Proof.Tests
end

/-! ### The fields of a decoded word

Reading `decode` backwards: a word that decodes to `i` carries the fields the tables give `i` (30_encoding.md rules R71
to R79), so T2 latches from IR what `exec i` latches from `i`. -/

namespace Sys2Proof

open Laws.EncodeFields (opcode indirect field)

/-- A memory-reference opcode selects the row of the table with that opcode, and the instruction carries the word's other
two fields (R73). -/
theorem fields_of_memoryReference? {op : BitVec 3} {ind : Bool} {a : Addr} {i : Instr}
    (h : memoryReference? op ind a = some i) : opcode i = op ∧ indirect i = ind ∧ field i = a := by
  obtain ⟨n, hn⟩ : ∃ n, op.toNat = n := ⟨_, rfl⟩
  have hop : op = BitVec.ofNat 3 n := by rw [← hn, BitVec.ofNat_toNat, BitVec.setWidth_eq]
  simp only [memoryReference?, hn] at h
  split at h
  case h_8 => cases h
  all_goals
    cases h
    exact ⟨hop.symm, rfl, rfl⟩

/-- A word with opcode 7 is no memory-reference word (R72). -/
theorem opcode_of_memoryReference?_eq_none {op : BitVec 3} {ind : Bool} {a : Addr}
    (h : memoryReference? op ind a = none) : op = 7 := by
  by_contra h7
  have hlt : op.toNat < 7 := by
    have hne : op.toNat ≠ 7 := fun hx => h7 (BitVec.eq_of_toNat_eq hx)
    have := op.isLt
    omega
  rcases (by omega : op.toNat = 0 ∨ op.toNat = 1 ∨ op.toNat = 2 ∨ op.toNat = 3 ∨ op.toNat = 4 ∨ op.toNat = 5 ∨
    op.toNat = 6) with hn | hn | hn | hn | hn | hn | hn <;> simp [memoryReference?, hn] at h

/-- A pair a lookup finds is in the table. -/
theorem mem_of_lookup {table : List (Addr × Instr)} {a : Addr} {i : Instr} (h : table.lookup a = some i) :
    (a, i) ∈ table := by
  obtain ⟨before, after, rfl, -⟩ := List.lookup_eq_some_iff.1 h
  simp

/-- Every row of the register-reference table has its instruction's fields (R76). -/
theorem fields_of_mem_registerReferenceTable {a : Addr} {i : Instr} (h : (a, i) ∈ registerReferenceTable) :
    opcode i = 7 ∧ indirect i = false ∧ field i = a := by
  have rows : ∀ row ∈ registerReferenceTable, opcode row.2 = 7 ∧ indirect row.2 = false ∧ field row.2 = row.1 := by
    decide
  exact rows _ h

/-- Every row of the input/output table has its instruction's fields (R77). -/
theorem fields_of_mem_inputOutputTable {a : Addr} {i : Instr} (h : (a, i) ∈ inputOutputTable) :
    opcode i = 7 ∧ indirect i = true ∧ field i = a := by
  have rows : ∀ row ∈ inputOutputTable, opcode row.2 = 7 ∧ indirect row.2 = true ∧ field row.2 = row.1 := by
    decide
  exact rows _ h

/-- A word that decodes to `i` has the three fields of `i`. -/
theorem fields_of_decode {w : Word} {i : Instr} (h : decode w = .ok i) :
    opcodeField w = opcode i ∧ indirectBit w = indirect i ∧ addressField w = field i := by
  unfold decode at h
  split at h
  next j hj =>
    cases h
    obtain ⟨ho, hi, ha⟩ := fields_of_memoryReference? hj
    exact ⟨ho.symm, hi.symm, ha.symm⟩
  next hnone =>
    have h7 := opcode_of_memoryReference?_eq_none hnone
    split at h
    next hind =>
      split at h
      next j hj =>
        cases h
        obtain ⟨ho, hi, ha⟩ := fields_of_mem_inputOutputTable (mem_of_lookup hj)
        exact ⟨h7.trans ho.symm, hind.trans hi.symm, ha.symm⟩
      next => cases h
    next hind =>
      split at h
      next j hj =>
        cases h
        obtain ⟨ho, hi, ha⟩ := fields_of_mem_registerReferenceTable (mem_of_lookup hj)
        exact ⟨h7.trans ho.symm, (Bool.eq_false_iff.2 hind).trans hi.symm, ha.symm⟩
      next => cases h

end Sys2Proof

/-! ### What an execution phase does

`phases_induction` runs over the rows of R108 and R109; these lemmas say once what it yields: which registers a phase of
an instruction may write, and how a phase leaves the control, as its instruction's last or not. -/

namespace Sys2Proof.Machine

open Sys2Proof.Statements

/-- What a phase of `i` that leads from `s` to `t` leaves in the registers, AC, DR, E and PC apart (R24 to R38, D8). -/
structure PhaseFrame (i : Instr) (s t : State) : Prop where
  AR : t.AR = s.AR
  IR : t.IR = s.IR
  TR : t.TR = s.TR
  INPR : t.INPR = s.INPR
  I : t.I = s.I
  ERR : t.ERR = s.ERR
  OUTR : t.OUTR = if i = .out then s.AC.extractLsb' 0 8 else s.OUTR
  FGI : t.FGI = if i = .inp then false else s.FGI
  FGO : t.FGO = if i = .out then false else s.FGO
  IEN : t.IEN = if i = .ion then true else if i = .iof then false else s.IEN
  S : t.S = if i = .hlt then false else s.S

theorem phase_frame {i : Instr} {p : Nat} {f : State → State} (hf : (phasesOf i)[p]? = some f) (s : State) :
    PhaseFrame i s (f s) := by
  refine phases_induction (P := fun i _ f => PhaseFrame i s (f s)) ?memory ?register ?inputOutput hf
  case memory => intro ind a; and_intros <;> constructor <;> rfl
  case register => and_intros <;> constructor <;> rfl
  case inputOutput => and_intros <;> constructor <;> rfl

/-- A phase leaves AC, DR and E alone unless its instruction is one R21, R23 or R32 lists. -/
theorem phase_keeps_unwritten {i : Instr} {p : Nat} {f : State → State} (hf : (phasesOf i)[p]? = some f) (s : State) :
    (writesAC i = false → (f s).AC = s.AC) ∧ (writesDR i = false → (f s).DR = s.DR) ∧
      (writesE i = false → (f s).E = s.E) := by
  refine phases_induction (P := fun i _ f => (writesAC i = false → (f s).AC = s.AC) ∧
    (writesDR i = false → (f s).DR = s.DR) ∧ (writesE i = false → (f s).E = s.E)) ?memory ?register ?inputOutput hf
  case memory => intro ind a; and_intros <;> intro h <;> cases h <;> rfl
  case register => and_intros <;> intro h <;> cases h <;> rfl
  case inputOutput => and_intros <;> intro h <;> cases h <;> rfl

/-- A state before its instruction's last: SC counts up and the control is otherwise as it was (R105 to R107). -/
structure Continues (s t : State) : Prop where
  SC : t.SC = s.SC + 1
  S : t.S = s.S
  R : t.R = s.R
  I : t.I = s.I
  IR : t.IR = s.IR
  M : t.M = s.M
  ERR : t.ERR = s.ERR

/-- An instruction's last state: `end_instruction`, and at most one store, at AR (R58, R112). -/
structure Ends (s t : State) : Prop where
  SC : t.SC = 0
  R : t.R = if interruptRequest s then true else s.R
  M : t.M = s.M ∨ ∃ v, t.M = s.M.set s.AR.toNat v
  ERR : t.ERR = s.ERR

theorem fetchOperand_continues (s : State) : Continues s (fetchOperand s) := ⟨rfl, rfl, rfl, rfl, rfl, rfl, rfl⟩

theorem iszIncrement_continues (s : State) : Continues s (iszIncrement s) := ⟨rfl, rfl, rfl, rfl, rfl, rfl, rfl⟩

/-- `end_instruction` after writes that keep R, ERR and memory. -/
theorem endInstruction_ends {s t : State} (hR : t.R = s.R) (hERR : t.ERR = s.ERR)
    (hM : t.M = s.M ∨ ∃ v, t.M = s.M.set s.AR.toNat v) : Ends s (State.endInstruction s t) :=
  ⟨rfl, by simp [hR], hM, hERR⟩

/-- A phase is followed by another and `Continues`, or it is the last and `Ends` (R108, R109). -/
theorem phase_continues_or_ends {i : Instr} {p : Nat} {f : State → State} (hf : (phasesOf i)[p]? = some f) :
    ((∃ g, (phasesOf i)[p + 1]? = some g) ∧ ∀ s, Continues s (f s)) ∨
    ((phasesOf i)[p + 1]? = none ∧ ∀ s, Ends s (f s)) := by
  refine phases_induction (P := fun i p f => ((∃ g, (phasesOf i)[p + 1]? = some g) ∧ ∀ s, Continues s (f s)) ∨
    ((phasesOf i)[p + 1]? = none ∧ ∀ s, Ends s (f s))) ?memory ?register ?inputOutput hf
  case memory =>
    intro ind a
    refine ⟨.inl ⟨⟨_, rfl⟩, fetchOperand_continues⟩, .inr ⟨rfl, fun s => endInstruction_ends rfl rfl (.inl rfl)⟩,
      .inl ⟨⟨_, rfl⟩, fetchOperand_continues⟩, .inr ⟨rfl, fun s => endInstruction_ends rfl rfl (.inl rfl)⟩,
      .inl ⟨⟨_, rfl⟩, fetchOperand_continues⟩, .inr ⟨rfl, fun s => endInstruction_ends rfl rfl (.inl rfl)⟩,
      .inr ⟨rfl, fun s => endInstruction_ends rfl rfl (.inr ⟨_, rfl⟩)⟩,
      .inr ⟨rfl, fun s => endInstruction_ends rfl rfl (.inl rfl)⟩,
      .inr ⟨rfl, fun s => endInstruction_ends rfl rfl (.inr ⟨_, rfl⟩)⟩,
      .inl ⟨⟨_, rfl⟩, fetchOperand_continues⟩, .inl ⟨⟨_, rfl⟩, iszIncrement_continues⟩,
      .inr ⟨rfl, fun s => endInstruction_ends rfl rfl (.inr ⟨_, rfl⟩)⟩⟩
  case register =>
    and_intros <;> exact .inr ⟨rfl, fun s => endInstruction_ends rfl rfl (.inl rfl)⟩
  case inputOutput =>
    and_intros <;> exact .inr ⟨rfl, fun s => endInstruction_ends rfl rfl (.inl rfl)⟩

end Sys2Proof.Machine

/-! ### The states that remain, and the timing state performed next

`step` performs a list of timing states, `stepCycle` one; both read the same list, `pendingStates`. -/

namespace Sys2Proof.Machine

/-- The engine is past T2 of an instruction, or in the interrupt cycle. -/
def InProgress (s : State) : Prop := s.R = true ∨ 3 ≤ s.SC.toNat

/-- The timing states that remain of the instruction or interrupt cycle in progress (R100, R213). -/
def pendingStates (s : State) : List (State → State) :=
  if s.R then interruptStates.drop s.SC.toNat else remainingStates s

theorem pendingStates_interrupt {s : State} (hR : s.R = true) :
    pendingStates s = interruptStates.drop s.SC.toNat := if_pos hR

theorem pendingStates_ok {s : State} {i : Instr} (hR : s.R = false) (hd : decode s.IR = .ok i) :
    pendingStates s = (statesAfterDecode i s).drop (s.SC.toNat - 3) := by
  simp [pendingStates, remainingStates, hR, hd]

theorem pendingStates_error {s : State} {why : IllegalWord} (hR : s.R = false) (hd : decode s.IR = .error why) :
    pendingStates s = if s.SC.toNat = 3 then [decodeErrorState] else [] := by
  simp [pendingStates, remainingStates, hR, hd]

/-- Past T2 the timing state performed next is the first pending one. -/
theorem timingState?_eq_head? {s : State} (h : InProgress s) : timingState? s = (pendingStates s).head? := by
  by_cases hR : s.R = true
  · simp [timingState?, pendingStates_interrupt hR, hR]
  · have hR : s.R = false := by simpa using hR
    have hlt : ¬ s.SC.toNat < 3 := by
      rcases h with h | h
      · simp [hR] at h
      · omega
    cases hd : decode s.IR with
    | ok i => simp [timingState?, pendingStates_ok hR hd, hR, hlt, hd]
    | error why => by_cases h3 : s.SC.toNat = 3 <;> simp [timingState?, pendingStates_error hR hd, hR, hd, h3, hlt]

/-- Past T2 a step performs the pending states, and the interrupt cycle if one follows (R234). -/
theorem step_inProgress {s : State} (hS : s.S = true) (h : InProgress s) : step s = finishWith (pendingStates s) s := by
  by_cases hR : s.R = true
  · simp [step, stepWhole, hS, hR, pendingStates]
  · have hlt : ¬ s.SC.toNat < 3 := by
      rcases h with h | h
      · exact absurd h hR
      · omega
    simp [step, stepWhole, hS, hR, hlt, pendingStates]

/-- Before that a step fetches the rest of the instruction's word and runs it (R102, R103). -/
theorem step_fetching {s : State} (hS : s.S = true) (hR : s.R = false) (hlt : s.SC.toNat < 3) :
    step s = runFetched (performAll ([t0, t1].drop s.SC.toNat) s) := by
  simp [step, stepWhole, hS, hR, hlt]

/-- A halted engine performs no timing state (R101). -/
theorem stepCycle_halted {s : State} (hS : s.S = false) : stepCycle s = .next s := by simp [stepCycle, hS]

theorem step_halted {s : State} (hS : s.S = false) : step s = .next s := by simp [step, stepWhole, hS]

theorem stepCycle_of_timingState? {s : State} {f : State → State} (hS : s.S = true) (hf : timingState? s = some f) :
    stepCycle s = .next (f s) := by simp [stepCycle, hS, hf]

/-! ### No timing state past the last (R31) -/

/-- No instruction has more than three execution phases (R108). -/
theorem length_phasesOf_le (i : Instr) : (phasesOf i).length ≤ 3 := by
  cases i <;> exact Nat.le_of_ble_eq_true rfl

theorem length_statesAfterDecode_le (i : Instr) (s : State) : (statesAfterDecode i s).length ≤ 4 := by
  have := length_phasesOf_le i
  unfold statesAfterDecode withIndirect
  split
  · exact Nat.succ_le_succ this
  · omega

/-- Every instruction has a first phase. -/
theorem exists_phase_zero (i : Instr) : ∃ f, (phasesOf i)[0]? = some f := by
  cases i <;> exact ⟨_, rfl⟩

theorem phasesOf_ne_nil (i : Instr) : phasesOf i ≠ [] := by
  cases i <;> exact List.cons_ne_nil _ _

/-- SC 7 to 15 name no timing state, in an instruction or in the interrupt cycle. -/
theorem pendingStates_eq_nil {s : State} (h : 7 ≤ s.SC.toNat) : pendingStates s = [] := by
  by_cases hR : s.R = true
  · rw [pendingStates_interrupt hR]
    exact List.drop_eq_nil_of_le (show 3 ≤ s.SC.toNat by omega)
  · have hR : s.R = false := by simpa using hR
    cases hd : decode s.IR with
    | ok i =>
      rw [pendingStates_ok hR hd]
      have := length_statesAfterDecode_le i s
      exact List.drop_eq_nil_of_le (by omega)
    | error why => rw [pendingStates_error hR hd, if_neg (by omega)]

end Sys2Proof.Machine

/-! ### The invariant is kept by a timing state -/

namespace Sys2Proof.Machine

/-- At SC = 0 the invariant is the memory's form, an SC the interrupt cycle allows, and ERR. -/
theorem State.Inv.of_boundary {s : State} (hSC : s.SC = 0) (hM : s.M.wf = true)
    (hE : s.ERR = none ∨ (s.S = false ∧ ∃ w a, s.ERR = some (.decodeError w a))) : s.Inv := by
  constructor <;> simp [hSC, hM, hE]

/-- A running engine has met no error. -/
theorem State.Inv.err_none {s : State} (h : s.Inv) (hS : s.S = true) : s.ERR = none := by
  rcases h.error_halts with hE | ⟨hS', -⟩
  · exact hE
  · rw [hS] at hS'; cases hS'

/-- A running engine that meets the invariant performs a timing state. -/
theorem State.Inv.timingState_isSome {s : State} (h : s.Inv) : (timingState? s).isSome = true := by
  by_cases hR : s.R = true
  · have hSC := h.interrupt_sc hR
    rw [timingState?_eq_head? (.inl hR), pendingStates_interrupt hR, List.head?_drop,
      List.getElem?_eq_getElem (show s.SC.toNat < 3 by omega)]
    rfl
  · have hR : s.R = false := by simpa using hR
    by_cases hlt : s.SC.toNat < 3
    · simp [timingState?, hR, hlt, fetchStates]
    · exact h.state_exists hR (by omega)

/-- The invariant of a running engine between T2 and the end of an instruction (R104 to R108). -/
theorem State.Inv.of_executing {s : State} (hS : s.S = true) (hR : s.R = false) (hM : s.M.wf = true) (hE : s.ERR = none)
    (hlo : 3 ≤ s.SC.toNat) (hhi : s.SC.toNat ≤ 6) (hI : s.I = indirectBit s.IR) (hstate : (timingState? s).isSome = true)
    (hAR : s.SC = 3 → s.AR = addressField s.IR) : s.Inv where
  memory_canonical := hM
  interrupt_sc h := by simp [hR] at h
  normal_sc _ := hhi
  halted_sc h := by simp [hS] at h
  indirect_latched _ _ := hI
  state_exists _ _ := hstate
  fetch_address _ h := by simp [h] at hlo
  fetched_address _ h := by simp [h] at hlo
  field_latched _ := hAR
  saved_pc h := by simp [hR] at h
  stored_pc h := by simp [hR] at h
  error_halts := .inl hE

variable {s : State}

theorem State.Inv.after_t0 (h : s.Inv) (hS : s.S = true) (hR : s.R = false) : (t0 s).Inv := by
  constructor <;> simp [h.memory_canonical, hS, hR, h.err_none hS]

theorem State.Inv.after_t1 (h : s.Inv) (hS : s.S = true) (hR : s.R = false) (hSC : s.SC = 1) : (t1 s).Inv := by
  constructor <;> simp [h.memory_canonical, hS, hR, h.err_none hS, h.fetch_address hR hSC]

theorem State.Inv.after_rt0 (h : s.Inv) (hS : s.S = true) (hR : s.R = true) : (rt0 s).Inv := by
  constructor <;> simp [h.memory_canonical, hS, hR, h.err_none hS]

theorem State.Inv.after_rt1 (h : s.Inv) (hS : s.S = true) (hR : s.R = true) (hSC : s.SC = 1) : (rt1 s).Inv := by
  obtain ⟨hAR, -⟩ := h.saved_pc hR hSC
  have hread := Memory.read_set_same h.memory_canonical 0 s.TR
  have hwf := Memory.wf_set_addr h.memory_canonical 0 s.TR
  constructor <;> simp_all [h.err_none hS]

theorem State.Inv.after_rt2 (h : s.Inv) (hS : s.S = true) : (rt2 s).Inv :=
  .of_boundary rfl h.memory_canonical (.inl (h.err_none hS))

theorem State.Inv.after_decodeErrorState (h : s.Inv) : (decodeErrorState s).Inv :=
  .of_boundary rfl h.memory_canonical (.inr ⟨rfl, _, _, rfl⟩)

/-- T3 always has a state to perform: the first of the instruction's, or the DecodeError state (R109, R202). -/
theorem timingState?_t2_isSome (hR : s.R = false) : (timingState? (t2 s)).isSome = true := by
  rw [timingState?_eq_head? (.inr (by simp))]
  cases hd : decode s.IR with
  | error why => rw [pendingStates_error (s := t2 s) hR hd]; rfl
  | ok i =>
    rw [pendingStates_ok (s := t2 s) hR hd]
    cases hm : i.isMemoryReference && indirectBit s.IR <;>
      simp [statesAfterDecode, withIndirect, hm, phasesOf_ne_nil]

theorem State.Inv.after_t2 (h : s.Inv) (hS : s.S = true) (hR : s.R = false) : (t2 s).Inv :=
  .of_executing hS hR h.memory_canonical (h.err_none hS) (by simp) (by simp) rfl (timingState?_t2_isSome hR) fun _ => rfl

/-- Where phase `p` of the instruction in IR stands next, there is a timing state. -/
theorem timingState?_phase_isSome {i : Instr} {p : Nat} (hS : s.S = true) (hR : s.R = false) (hd : decode s.IR = .ok i)
    (hSC : s.SC.toNat = phaseSC i s p) (hp : ∃ f, (phasesOf i)[p]? = some f) : (timingState? s).isSome = true := by
  obtain ⟨f, hf⟩ := hp
  exact timingState_isSome hS (stepCycle_phase hS hR hd hSC hf)

theorem State.Inv.after_indirectState {i : Instr} (h : s.Inv) (hS : s.S = true) (hR : s.R = false) (hSC : s.SC = 3)
    (hI : s.I = true) (hd : decode s.IR = .ok i) (hm : i.isMemoryReference = true) : (indirectState s).Inv := by
  have hlatched : s.I = indirectBit s.IR := h.indirect_latched hR (by simp [hSC])
  have hphase : (indirectState s).SC.toNat = phaseSC i (indirectState s) 0 := by simp [phaseSC, hm, hI]
  exact .of_executing hS hR h.memory_canonical (h.err_none hS) (by simp) (by simp) hlatched
    (timingState?_phase_isSome hS hR hd hphase (exists_phase_zero i)) (by simp)

/-- A phase's SC is at most 6. -/
theorem phaseSC_le {i : Instr} {p : Nat} {f : State → State} (s : State) (hf : (phasesOf i)[p]? = some f) :
    phaseSC i s p ≤ 6 := by
  obtain ⟨hp, -⟩ := List.getElem?_eq_some_iff.1 hf
  have := length_phasesOf_le i
  unfold phaseSC
  split <;> omega

/-- SC counts up by one where it does not wrap. -/
theorem SeqCount.toNat_succ {sc : SeqCount} (h : sc.toNat < 15) : (sc + 1).toNat = sc.toNat + 1 := by
  bv_omega

/-- After a phase that is not the last, SC stands at the next one (R106). -/
theorem Continues.phaseSC_succ {i : Instr} {p : Nat} {t : State} {g : State → State} (h : Continues s t)
    (hSC : s.SC.toNat = phaseSC i s p) (hg : (phasesOf i)[p + 1]? = some g) : t.SC.toNat = phaseSC i t (p + 1) := by
  have hsucc : phaseSC i t (p + 1) = phaseSC i s p + 1 := by simp [phaseSC, h.I]; omega
  have hle := phaseSC_le t hg
  rw [h.SC, SeqCount.toNat_succ (by omega), hSC, hsucc]

theorem three_le_phaseSC (i : Instr) (s : State) (p : Nat) : 3 ≤ phaseSC i s p := by
  unfold phaseSC; omega

theorem State.Inv.after_phase {i : Instr} {p : Nat} {f : State → State} (h : s.Inv) (hS : s.S = true) (hR : s.R = false)
    (hd : decode s.IR = .ok i) (hSC : s.SC.toNat = phaseSC i s p) (hf : (phasesOf i)[p]? = some f) : (f s).Inv := by
  have hM := h.memory_canonical
  have hE := h.err_none hS
  have hlo : 3 ≤ s.SC.toNat := hSC ▸ three_le_phaseSC i s p
  rcases phase_continues_or_ends hf with ⟨⟨g, hg⟩, hf⟩ | ⟨-, hf⟩
  · have hc := hf s
    have hSC' := hc.phaseSC_succ hSC hg
    have hlo' : 4 ≤ (f s).SC.toNat := by
      rw [hSC']; unfold phaseSC; omega
    refine .of_executing (hc.S.trans hS) (hc.R.trans hR) (hc.M ▸ hM) (hc.ERR.trans hE) (by omega)
      (hSC' ▸ phaseSC_le _ hg) ?_ ?_ fun h3 => ?_
    · rw [hc.I, hc.IR]; exact h.indirect_latched hR hlo
    · exact timingState?_phase_isSome (hc.S.trans hS) (hc.R.trans hR) (hc.IR ▸ hd) hSC' ⟨g, hg⟩
    · simp [h3] at hlo'
  · have he := hf s
    refine .of_boundary he.SC ?_ (.inl (he.ERR.trans hE))
    rcases he.M with hM' | ⟨v, hM'⟩
    · rw [hM']; exact hM
    · rw [hM']; exact Memory.wf_set_addr hM _ v

/-- Whatever timing state leads from `s` to `t`, the invariant goes with it. -/
theorem State.Inv.after_stepCycle {t : State} (h : s.Inv) (hst : stepCycle s = .next t) : t.Inv := by
  rcases stepCycle_cases hst with ⟨-, rfl⟩ | ⟨hS, hR, hrt⟩ | ⟨hS, hR, ht⟩
  · exact h
  · rcases hrt with ⟨-, rfl⟩ | ⟨hSC, rfl⟩ | ⟨-, rfl⟩
    · exact h.after_rt0 hS hR
    · exact h.after_rt1 hS hR hSC
    · exact h.after_rt2 hS
  · rcases ht with ⟨-, rfl⟩ | ⟨hSC, rfl⟩ | ⟨-, rfl⟩ | ⟨-, -, rfl⟩ | ⟨hSC, hI, ⟨i, hd, hm⟩, rfl⟩ |
      ⟨i, p, f, hd, hSC, hf, rfl⟩
    · exact h.after_t0 hS hR
    · exact h.after_t1 hS hR hSC
    · exact h.after_t2 hS hR
    · exact h.after_decodeErrorState
    · exact h.after_indirectState hS hR hSC hI hd hm
    · exact h.after_phase hS hR hd hSC hf

/-- From a state that meets the invariant a timing state answers. -/
theorem State.Inv.stepCycle_answers (h : s.Inv) : ∃ t, stepCycle s = .next t := by
  by_cases hS : s.S = true
  · obtain ⟨f, hf⟩ := Option.isSome_iff_exists.1 h.timingState_isSome
    exact ⟨f s, stepCycle_of_timingState? hS hf⟩
  · exact ⟨s, stepCycle_halted (by simpa using hS)⟩

end Sys2Proof.Machine

/-! ### A step is a run of timing states

`step` goes through `exec` and never calls `stepCycle`; every state it answers is nevertheless one that `stepCycle`
reaches (R234). A property that each timing state keeps is so kept by `step`, by `run` and by every host move that is
one of them. -/

namespace Sys2Proof.Machine

open Laws.EncodeFields (indirect field)

/-- `t` is what some number of timing states make of `s` (R100). -/
def Cycles : State → State → Prop := Relation.ReflTransGen fun s t => stepCycle s = .next t

/-- A property that every timing state keeps holds after any number of them. -/
theorem Cycles.preserves {P : State → Prop} (hP : ∀ s t, stepCycle s = .next t → P s → P t) {s t : State}
    (h : Cycles s t) (hs : P s) : P t := by
  induction h with
  | refl => exact hs
  | tail _ hstep ih => exact hP _ _ hstep ih

theorem Cycles.single {s t : State} (h : stepCycle s = .next t) : Cycles s t := Relation.ReflTransGen.single h

theorem Cycles.cons {s t u : State} (h : stepCycle s = .next t) (htu : Cycles t u) : Cycles s u :=
  Relation.ReflTransGen.head h htu

theorem Cycles.trans {s t u : State} (hst : Cycles s t) (htu : Cycles t u) : Cycles s u :=
  Relation.ReflTransGen.trans hst htu

/-- The first pending state is the indirect state, and a phase follows it, or it is a phase (R105, R106). -/
theorem statesAfterDecode_continues_or_ends {i : Instr} {s : State} {f : State → State}
    (hlo : 3 ≤ s.SC.toNat) (hf : (statesAfterDecode i s)[s.SC.toNat - 3]? = some f) :
    ((statesAfterDecode i s)[s.SC.toNat - 3 + 1]? ≠ none ∧ Continues s (f s)) ∨
    ((statesAfterDecode i s)[s.SC.toNat - 3 + 1]? = none ∧ Ends s (f s)) := by
  rcases statesAfterDecode_get hf with ⟨hk, hm, hI, rfl⟩ | ⟨p, hp, hphase⟩
  · have hSC : s.SC = 3 := BitVec.eq_of_toNat_eq (show s.SC.toNat = 3 by omega)
    refine .inl ⟨by simp [statesAfterDecode, withIndirect, hm, hI, hk, phasesOf_ne_nil], ?_⟩
    constructor <;> simp [hSC]
  · have hnext : (statesAfterDecode i s)[s.SC.toNat - 3 + 1]? = (phasesOf i)[p + 1]? := by
      unfold phaseSC at hp
      unfold statesAfterDecode withIndirect
      split at hp
      next hb => rw [if_pos hb, show s.SC.toNat - 3 + 1 = p + 1 + 1 by omega, List.getElem?_cons_succ]
      next hb => rw [if_neg hb, show s.SC.toNat - 3 + 1 = p + 1 by omega]
    rw [hnext]
    rcases phase_continues_or_ends hphase with ⟨⟨g, hg⟩, h⟩ | ⟨hg, h⟩
    · exact .inl ⟨by simp [hg], h s⟩
    · exact .inr ⟨hg, h s⟩

/-- Where a pending state is not the last SC counts up, so the states after it are pending next. -/
theorem Continues.pendingStates_eq {s t : State} {i : Instr} (h : Continues s t) (hR : s.R = false)
    (hd : decode s.IR = .ok i) (hlo : 3 ≤ s.SC.toNat) (hhi : s.SC.toNat < 7) :
    pendingStates t = (statesAfterDecode i s).drop (s.SC.toNat - 3 + 1) ∧ 3 ≤ t.SC.toNat := by
  have hSC : t.SC.toNat = s.SC.toNat + 1 := by
    rw [h.SC, SeqCount.toNat_succ (by omega)]
  refine ⟨?_, by omega⟩
  rw [pendingStates_ok (h.R.trans hR) (h.IR ▸ hd), hSC, show s.SC.toNat + 1 - 3 = s.SC.toNat - 3 + 1 by omega]
  simp [statesAfterDecode, h.I]

/-- After the first pending state the others are pending, or it was the last and leaves SC = 0. -/
theorem pendingStates_tail {s : State} {f : State → State} {rest : List (State → State)} (hS : s.S = true)
    (h : InProgress s) (hp : pendingStates s = f :: rest) :
    (rest ≠ [] ∧ pendingStates (f s) = rest ∧ InProgress (f s) ∧ (f s).S = true) ∨ (rest = [] ∧ (f s).SC = 0) := by
  have hSC : s.SC.toNat < 7 := by
    by_contra hge
    rw [pendingStates_eq_nil (by omega)] at hp
    cases hp
  by_cases hR : s.R = true
  · rw [pendingStates_interrupt hR] at hp
    have hlt : s.SC.toNat < 3 := by
      by_contra hge
      rw [List.drop_eq_nil_of_le (by simpa [interruptStates] using hge)] at hp
      cases hp
    rcases SeqCount.cases_lt_three hlt with hc | hc | hc <;> rw [hc] at hp <;> cases hp
    · exact .inl ⟨by simp, pendingStates_interrupt (s := rt0 s) hR, .inl hR, hS⟩
    · exact .inl ⟨by simp, pendingStates_interrupt (s := rt1 s) hR, .inl hR, hS⟩
    · exact .inr ⟨rfl, rfl⟩
  · have hlo : 3 ≤ s.SC.toNat := h.resolve_left hR
    have hR : s.R = false := by simpa using hR
    cases hd : decode s.IR with
    | error why =>
      rw [pendingStates_error hR hd] at hp
      split at hp <;> cases hp
      exact .inr ⟨rfl, rfl⟩
    | ok i =>
      rw [pendingStates_ok hR hd] at hp
      have hf : (statesAfterDecode i s)[s.SC.toNat - 3]? = some f := by rw [← List.head?_drop, hp]; rfl
      have hrest : (statesAfterDecode i s).drop (s.SC.toNat - 3 + 1) = rest := by rw [← List.tail_drop, hp]; rfl
      rcases statesAfterDecode_continues_or_ends hlo hf with ⟨hnext, hc⟩ | ⟨hnext, he⟩
      · obtain ⟨hpend, hlo'⟩ := hc.pendingStates_eq hR hd hlo hSC
        exact .inl ⟨by simpa [← hrest] using hnext, hpend.trans hrest, .inr hlo', hc.S.trans hS⟩
      · exact .inr ⟨by simpa [← hrest] using hnext, he.SC⟩

/-- The pending states are timing states performed one after another, and the last leaves SC = 0. -/
theorem cycles_performAll_pendingStates {s : State} (hS : s.S = true) (h : InProgress s) (hne : pendingStates s ≠ []) :
    Cycles s (performAll (pendingStates s) s) ∧ (performAll (pendingStates s) s).SC = 0 := by
  generalize hp : pendingStates s = fs at hne
  induction fs generalizing s with
  | nil => exact absurd rfl hne
  | cons f rest ih =>
    have hf : stepCycle s = .next (f s) :=
      stepCycle_of_timingState? hS (by rw [timingState?_eq_head? h, hp]; rfl)
    rw [performAll_cons]
    rcases pendingStates_tail hS h hp with ⟨hrest, hp', h', hS'⟩ | ⟨rfl, hSC⟩
    · obtain ⟨hc, hSC⟩ := ih hS' h' hp' hrest
      exact ⟨hc.cons hf, hSC⟩
    · exact ⟨.single hf, hSC⟩

/-- At SC = 0 the interrupt cycle that may follow is its three timing states (R213). -/
theorem cycles_foldInterrupt {s : State} (hSC : s.SC = 0) : Cycles s (foldInterrupt s) := by
  by_cases h : (s.S && s.R) = true
  · rw [foldInterrupt_of h]
    obtain ⟨hS, hR⟩ := Bool.and_eq_true_iff.1 h
    have hp : pendingStates s = interruptStates := by rw [pendingStates_interrupt hR, hSC]; rfl
    have hc := cycles_performAll_pendingStates hS (.inl hR) (by simp [hp, interruptStates])
    rw [hp] at hc
    exact hc.1
  · rw [foldInterrupt_of_not (by simpa using h)]
    exact .refl

theorem finishWith_of_ne_nil {states : List (State → State)} (h : states ≠ []) (s : State) :
    finishWith states s = .next (foldInterrupt (performAll states s)) := by
  cases states with
  | nil => exact absurd rfl h
  | cons f rest => rfl

/-- What finishing the pending states answers, timing states reach. -/
theorem cycles_finishWith {s t : State} (hS : s.S = true) (h : InProgress s)
    (ht : finishWith (pendingStates s) s = .next t) : Cycles s t := by
  have hne : pendingStates s ≠ [] := by
    intro hnil
    rw [hnil] at ht
    cases ht
  rw [finishWith_of_ne_nil hne] at ht
  cases ht
  obtain ⟨hc, hSC⟩ := cycles_performAll_pendingStates hS h hne
  exact hc.trans (cycles_foldInterrupt hSC)

/-- Every instruction as T2 with its own fields, its indirect state and its phases (R104 to R109). -/
theorem exec_eq (i : Instr) (s : State) :
    exec i s = .next (performAll (withIndirect (i.isMemoryReference && indirect i) (phasesOf i))
      (latchFields (indirect i) (field i) s)) := by
  cases i <;> rfl

/-- Running the instruction in IR is T2 and then the states pending after it. -/
theorem runFetched_eq {s : State} (hR : s.R = false) : runFetched s = finishWith (pendingStates (t2 s)) (t2 s) := by
  unfold runFetched
  cases hd : decode s.IR with
  | error why => rw [pendingStates_error (s := t2 s) hR hd]; rfl
  | ok i =>
    obtain ⟨-, hI, hfield⟩ := fields_of_decode hd
    have hp : pendingStates (t2 s) = withIndirect (i.isMemoryReference && indirect i) (phasesOf i) := by
      rw [pendingStates_ok (s := t2 s) hR hd, ← hI]
      rfl
    have hT2 : latchFields (indirect i) (field i) s = t2 s := by rw [← hI, ← hfield]; rfl
    have hne : withIndirect (i.isMemoryReference && indirect i) (phasesOf i) ≠ [] := by
      unfold withIndirect
      split
      · simp
      · exact phasesOf_ne_nil i
    simp only [exec_eq, hT2, hp, finishWith_of_ne_nil hne]

section Fetch
variable {s : State} (hS : s.S = true) (hR : s.R = false)
include hS hR

/-- The fetch states by SC, where the engine runs no interrupt cycle (R100). -/
theorem stepCycle_t0 (hSC : s.SC = 0) : stepCycle s = .next (t0 s) :=
  stepCycle_of_timingState? hS (by simp [timingState?, hR, hSC, fetchStates])

theorem stepCycle_t1 (hSC : s.SC = 1) : stepCycle s = .next (t1 s) :=
  stepCycle_of_timingState? hS (by simp [timingState?, hR, hSC, fetchStates])

theorem stepCycle_t2 (hSC : s.SC = 2) : stepCycle s = .next (t2 s) :=
  stepCycle_of_timingState? hS (by simp [timingState?, hR, hSC, fetchStates])

/-- From SC 0 to 2 the fetch states that remain lead past T2, and the step goes on from there (R102 to R104). -/
theorem cycles_fetch (hlt : s.SC.toNat < 3) :
    ∃ u, Cycles s u ∧ u.S = true ∧ InProgress u ∧ step s = finishWith (pendingStates u) u := by
  have hstep := step_fetching hS hR hlt
  rcases SeqCount.cases_lt_three hlt with hSC | hSC | hSC <;> rw [hSC] at hstep
  · refine ⟨t2 (t1 (t0 s)), ?_, hS, .inr (by simp), hstep.trans (runFetched_eq hR)⟩
    have h1 := stepCycle_t1 (s := t0 s) hS hR rfl
    have h2 := stepCycle_t2 (s := t1 (t0 s)) hS hR rfl
    exact .cons (stepCycle_t0 hS hR hSC) (.cons h1 (.single h2))
  · refine ⟨t2 (t1 s), ?_, hS, .inr (by simp), hstep.trans (runFetched_eq hR)⟩
    have h2 := stepCycle_t2 (s := t1 s) hS hR rfl
    exact .cons (stepCycle_t1 hS hR hSC) (.single h2)
  · exact ⟨t2 s, .single (stepCycle_t2 hS hR hSC), hS, .inr (by simp), hstep.trans (runFetched_eq hR)⟩

end Fetch

/-- Every state a step answers is reached by timing states. -/
theorem cycles_of_step {s t : State} (h : step s = .next t) : Cycles s t := by
  by_cases hS : s.S = true
  · by_cases hin : InProgress s
    · exact cycles_finishWith hS hin (step_inProgress hS hin ▸ h)
    · obtain ⟨hR, hlt⟩ := not_or.1 hin
      obtain ⟨u, hsu, hSu, hinu, hstep⟩ := cycles_fetch hS (by simpa using hR) (by omega)
      exact hsu.trans (cycles_finishWith hSu hinu (hstep ▸ h))
  · rw [step_halted (by simpa using hS)] at h
    cases h
    exact .refl

/-- Every state a run answers is reached by timing states (R233). -/
theorem cycles_of_runLimited {n : Nat} {s t : State} (h : runLimited n s = .next t) : Cycles s t := by
  induction n generalizing s with
  | zero => cases h; exact .refl
  | succ n ih =>
    by_cases hS : s.S = true
    · cases hstep : step s with
      | next u =>
        have hrun : runLimited n u = .next t := by simpa [runLimited, hS, hstep] using h
        exact (cycles_of_step hstep).trans (ih hrun)
      | fault f => simp [runLimited, hS, hstep] at h
      | refused r => simp [runLimited, hS, hstep] at h
    · have hst : s = t := by simpa [runLimited, hS] using h
      rw [hst]
      exact .refl

/-- Everything a host move can do: load an image, give input, report the output ready, or let the engine perform some
number of timing states, none for an observer or a load that fails (R236). -/
theorem perform_cases {m : HostMove} {s t : State} (h : m.perform s = .next t) :
    (∃ program data origin, m = .load program data origin ∧ load program data origin = .ok t) ∨
    (∃ b, m = .input b ∧ t = hostInput b s) ∨ (m = .outputReady ∧ t = hostOutputReady s) ∨ Cycles s t := by
  cases m with
  | load program data origin =>
    simp only [HostMove.perform] at h
    cases hload : load program data origin with
    | ok u => rw [hload] at h; cases h; exact .inl ⟨program, data, origin, rfl, hload⟩
    | error e => rw [hload] at h; cases h; exact .inr (.inr (.inr .refl))
  | stepCycle => exact .inr (.inr (.inr (.single h)))
  | stepInstruction => exact .inr (.inr (.inr (cycles_of_step h)))
  | run limit => exact .inr (.inr (.inr (cycles_of_runLimited h)))
  | input b => cases h; exact .inr (.inl ⟨b, rfl, rfl⟩)
  | outputReady => cases h; exact .inr (.inr (.inl ⟨rfl, rfl⟩))
  | readRegister name => cases h; exact .inr (.inr (.inr .refl))
  | readMemory address count => cases h; exact .inr (.inr (.inr .refl))
  | profilerSnapshot => cases h; exact .inr (.inr (.inr .refl))

end Sys2Proof.Machine

/-! ### Every step, run and host move keeps the invariant (R41) -/

namespace Sys2Proof.Machine

theorem State.Inv.after_cycles {s t : State} (h : s.Inv) (hst : Cycles s t) : t.Inv :=
  hst.preserves (fun _ _ hstep hs => hs.after_stepCycle hstep) h

/-- From a state that meets the invariant a step answers. -/
theorem State.Inv.step_answers {s : State} (h : s.Inv) : ∃ t, step s = .next t := by
  by_cases hS : s.S = true
  · have finishes {u : State} (hu : u.Inv) (hin : InProgress u) : ∃ t, finishWith (pendingStates u) u = .next t := by
      have hne : pendingStates u ≠ [] := by
        intro hnil
        have := hu.timingState_isSome
        simp [timingState?_eq_head? hin, hnil] at this
      exact ⟨_, finishWith_of_ne_nil hne u⟩
    by_cases hin : InProgress s
    · rw [step_inProgress hS hin]
      exact finishes h hin
    · obtain ⟨hR, hlt⟩ := not_or.1 hin
      obtain ⟨u, hsu, -, hinu, hstep⟩ := cycles_fetch hS (by simpa using hR) (by omega)
      rw [hstep]
      exact finishes (h.after_cycles hsu) hinu
  · exact ⟨s, step_halted (by simpa using hS)⟩

/-- From a state that meets the invariant a run answers. -/
theorem State.Inv.runLimited_answers {s : State} (h : s.Inv) (n : Nat) : ∃ t, runLimited n s = .next t := by
  induction n generalizing s with
  | zero => exact ⟨s, rfl⟩
  | succ n ih =>
    by_cases hS : s.S = true
    · obtain ⟨u, hu⟩ := h.step_answers
      obtain ⟨t, ht⟩ := ih (h.after_cycles (cycles_of_step hu))
      exact ⟨t, by simpa [runLimited, hS, hu] using ht⟩
    · exact ⟨s, by simp [runLimited, hS]⟩

/-- A load that succeeds passed every check, and leaves the engine at the origin with the image in memory (R252). -/
theorem load_ok {program : List Nat} {data : List (Nat × Nat)} {origin : Nat} {t : State}
    (h : load program data origin = .ok t) :
    loadCheck program data origin = none ∧
      t = { State.reset with PC := BitVec.ofNat 12 origin, S := true, M := imageMemory program data origin } := by
  unfold load at h
  split at h
  next => cases h
  next hcheck => cases h; exact ⟨hcheck, rfl⟩

/-- The image of a load that passed the checks is in canonical form (R252, R253). -/
theorem imageMemory_wf {program : List Nat} {data : List (Nat × Nat)} {origin : Nat}
    (h : loadCheck program data origin = none) : (imageMemory program data origin).wf = true := by
  unfold loadCheck at h
  split at h
  next => cases h
  next =>
    split at h
    next => cases h
    next hlen =>
      split at h
      next => cases h
      next hdata =>
        refine placeData_wf (placeProgram_wf rfl (by omega)) fun p hp => ?_
        have : ¬ p.1 > 0xFFF := fun hgt => hdata (List.any_eq_true.2 ⟨p, hp, by simpa using hgt⟩)
        simp only [Config.memWords]
        omega

theorem inv_of_load {program : List Nat} {data : List (Nat × Nat)} {origin : Nat} {t : State}
    (h : load program data origin = .ok t) : t.Inv := by
  obtain ⟨hcheck, rfl⟩ := load_ok h
  exact .of_boundary rfl (imageMemory_wf hcheck) (.inl rfl)

/-- Host input writes nothing the invariant speaks of (R222). -/
theorem State.Inv.after_hostInput {s : State} (h : s.Inv) (b : IoByte) : (hostInput b s).Inv := { h with }

/-- Nor does output-ready (R223). -/
theorem State.Inv.after_hostOutputReady {s : State} (h : s.Inv) : (hostOutputReady s).Inv := { h with }

/-- From a state that meets the invariant every host move answers (R224). -/
theorem State.Inv.perform_answers {s : State} (h : s.Inv) (m : HostMove) : ∃ t, m.perform s = .next t := by
  cases m with
  | load program data origin =>
    cases hload : load program data origin with
    | ok t => exact ⟨t, by simp [HostMove.perform, hload]⟩
    | error e => exact ⟨s, by simp [HostMove.perform, hload]⟩
  | stepCycle => exact h.stepCycle_answers
  | stepInstruction => exact h.step_answers
  | run limit => exact h.runLimited_answers limit
  | input b => exact ⟨_, rfl⟩
  | outputReady => exact ⟨_, rfl⟩
  | readRegister name => exact ⟨_, rfl⟩
  | readMemory address count => exact ⟨_, rfl⟩
  | profilerSnapshot => exact ⟨_, rfl⟩

theorem State.Inv.after_perform {m : HostMove} {s t : State} (h : s.Inv) (hst : m.perform s = .next t) : t.Inv := by
  rcases perform_cases hst with ⟨program, data, origin, -, hload⟩ | ⟨b, -, rfl⟩ | ⟨-, rfl⟩ | hcycles
  · exact inv_of_load hload
  · exact h.after_hostInput b
  · exact h.after_hostOutputReady
  · exact h.after_cycles hcycles

end Sys2Proof.Machine

/-! ### The obligations on the invariant -/

namespace Sys2Proof.Proofs

open Sys2Proof.Machine Sys2Proof.Statements

/-- Settles O46: at construction SC is 0, memory is empty and ERR is none. -/
theorem resetMeetsTheInvariant : Obligations.ResetMeetsTheInvariant :=
  State.Inv.of_boundary rfl State.reset_memory_wf (.inl rfl)

/-- Settles O47, case by case over what one timing state can be. -/
theorem timingStateKeepsTheInvariant : Obligations.TimingStateKeepsTheInvariant := by
  intro s h
  obtain ⟨t, ht⟩ := h.stepCycle_answers
  exact ⟨t, ht, h.after_stepCycle ht⟩

/-- Settles O48: a step is a run of timing states. -/
theorem stepKeepsTheInvariant : Obligations.StepKeepsTheInvariant :=
  fun _ _ h hst => h.after_cycles (cycles_of_step hst)

/-- Settles O49, over the moves a host has. -/
theorem hostMovesKeepTheInvariant : Obligations.HostMovesKeepTheInvariant := by
  intro m s h
  obtain ⟨t, ht⟩ := h.perform_answers m
  exact ⟨t, ht, h.after_perform ht⟩

/-- Settles O50: with SC 7 to 15 no timing state is pending. -/
theorem noStatePastTheLast : Obligations.NoStatePastTheLast := by
  intro s hS h7
  have hin : InProgress s := .inr (by omega)
  have hnil := pendingStates_eq_nil h7
  have hnone : timingState? s = none := by rw [timingState?_eq_head? hin, hnil]; rfl
  exact ⟨by simp [stepCycle, hS, hnone], by rw [step_inProgress hS hin, hnil]; rfl⟩

end Sys2Proof.Proofs

/-! ### Which timing states write which register

A timing state is an execution phase of the decoded instruction or one of the states the instructions share; the two
frames together say who writes what. -/

namespace Sys2Proof.Machine

open Sys2Proof.Statements

/-- What a timing state that is no execution phase leaves in the registers: T0 to T2, the indirect state, RT0 to RT2 and
the DecodeError state (R102 to R107, R202, R214 to R216), and a halted engine. -/
structure SharedStateFrame (s t : State) : Prop where
  AC : t.AC = s.AC
  DR : t.DR = s.DR
  E : t.E = s.E
  OUTR : t.OUTR = s.OUTR
  INPR : t.INPR = s.INPR
  FGI : t.FGI = s.FGI
  FGO : t.FGO = s.FGO
  IR : t.IR = s.IR ∨ (s.R = false ∧ s.SC = 1)
  TR : t.TR = s.TR ∨ (s.R = true ∧ s.SC = 0)
  interrupt : (t.IEN = s.IEN ∧ t.R = s.R) ∨ (s.R = true ∧ s.SC = 2 ∧ t.SC = 0 ∧ t.IEN = false ∧ t.R = false)

/-- A timing state is one of the shared states or an execution phase of the instruction in IR. -/
theorem stepCycle_shared_or_phase {s t : State} (h : stepCycle s = .next t) :
    SharedStateFrame s t ∨
    ∃ i p f, decode s.IR = .ok i ∧ s.SC.toNat = phaseSC i s p ∧ (phasesOf i)[p]? = some f ∧ t = f s := by
  rcases stepCycle_cases h with ⟨-, rfl⟩ | ⟨-, hR, hrt⟩ | ⟨-, hR, ht⟩
  · exact .inl ⟨rfl, rfl, rfl, rfl, rfl, rfl, rfl, .inl rfl, .inl rfl, .inl ⟨rfl, rfl⟩⟩
  · rcases hrt with ⟨hSC, rfl⟩ | ⟨-, rfl⟩ | ⟨hSC, rfl⟩
    · exact .inl ⟨rfl, rfl, rfl, rfl, rfl, rfl, rfl, .inl rfl, .inr ⟨hR, hSC⟩, .inl ⟨rfl, rfl⟩⟩
    · exact .inl ⟨rfl, rfl, rfl, rfl, rfl, rfl, rfl, .inl rfl, .inl rfl, .inl ⟨rfl, rfl⟩⟩
    · exact .inl ⟨rfl, rfl, rfl, rfl, rfl, rfl, rfl, .inl rfl, .inl rfl, .inr ⟨hR, hSC, rfl, rfl, rfl⟩⟩
  · rcases ht with ⟨-, rfl⟩ | ⟨hSC, rfl⟩ | ⟨-, rfl⟩ | ⟨-, -, rfl⟩ | ⟨-, -, -, rfl⟩ | ⟨i, p, f, hd, hSC, hf, rfl⟩
    · exact .inl ⟨rfl, rfl, rfl, rfl, rfl, rfl, rfl, .inl rfl, .inl rfl, .inl ⟨rfl, rfl⟩⟩
    · exact .inl ⟨rfl, rfl, rfl, rfl, rfl, rfl, rfl, .inr ⟨hR, hSC⟩, .inl rfl, .inl ⟨rfl, rfl⟩⟩
    · exact .inl ⟨rfl, rfl, rfl, rfl, rfl, rfl, rfl, .inl rfl, .inl rfl, .inl ⟨rfl, rfl⟩⟩
    · exact .inl ⟨rfl, rfl, rfl, rfl, rfl, rfl, rfl, .inl rfl, .inl rfl, .inl ⟨rfl, rfl⟩⟩
    · exact .inl ⟨rfl, rfl, rfl, rfl, rfl, rfl, rfl, .inl rfl, .inl rfl, .inl ⟨rfl, rfl⟩⟩
    · exact .inr ⟨i, p, f, hd, hSC, hf, rfl⟩

/-- A register-reference or input/output instruction has its one state at T3 (R109). -/
theorem SC_eq_three {i : Instr} {s : State} {p : Nat} {f : State → State} (hm : i.isMemoryReference = false)
    (hSC : s.SC.toNat = phaseSC i s p) (hf : (phasesOf i)[p]? = some f) : s.SC = 3 := by
  have hlen : (phasesOf i).length = 1 := by cases i <;> cases hm <;> rfl
  obtain ⟨hp, -⟩ := List.getElem?_eq_some_iff.1 hf
  have hp : p = 0 := by omega
  exact BitVec.eq_of_toNat_eq (by simp [hSC, phaseSC, hm, hp])

/-- The request condition, read out (R211). -/
theorem interruptRequest_iff {s : State} :
    interruptRequest s = true ↔ s.IEN = true ∧ (s.FGI = true ∨ s.FGO = true) ∧ s.R = false := by
  simp [interruptRequest, and_assoc]

/-- Only INP lowers FGI and no timing state raises it (R37). -/
theorem stepCycle_FGI {s t : State} (h : stepCycle s = .next t) :
    t.FGI = s.FGI ∨ (t.FGI = false ∧ decode s.IR = .ok .inp ∧ s.SC = 3) := by
  rcases stepCycle_shared_or_phase h with hk | ⟨i, p, f, hd, hSC, hf, rfl⟩
  · exact .inl hk.FGI
  · have hFGI := (phase_frame hf s).FGI
    split at hFGI
    next hi => subst hi; exact .inr ⟨hFGI, hd, SC_eq_three rfl hSC hf⟩
    next => exact .inl hFGI

/-- Only OUT lowers FGO and no timing state raises it (R38). -/
theorem stepCycle_FGO {s t : State} (h : stepCycle s = .next t) :
    t.FGO = s.FGO ∨ (t.FGO = false ∧ decode s.IR = .ok .out ∧ s.SC = 3) := by
  rcases stepCycle_shared_or_phase h with hk | ⟨i, p, f, hd, hSC, hf, rfl⟩
  · exact .inl hk.FGO
  · have hFGO := (phase_frame hf s).FGO
    split at hFGO
    next hi => subst hi; exact .inr ⟨hFGO, hd, SC_eq_three rfl hSC hf⟩
    next => exact .inl hFGO

/-- ION sets IEN, IOF and RT2 clear it, and every other timing state leaves it (R34). -/
theorem stepCycle_IEN {s t : State} (h : stepCycle s = .next t) :
    t.IEN = s.IEN ∨ (t.IEN = true ∧ decode s.IR = .ok .ion ∧ s.SC = 3) ∨
      (t.IEN = false ∧ ((decode s.IR = .ok .iof ∧ s.SC = 3) ∨ (s.R = true ∧ s.SC = 2))) := by
  rcases stepCycle_shared_or_phase h with hk | ⟨i, p, f, hd, hSC, hf, rfl⟩
  · rcases hk.interrupt with ⟨hIEN, -⟩ | ⟨hR, hSC, -, hIEN, -⟩
    · exact .inl hIEN
    · exact .inr (.inr ⟨hIEN, .inr ⟨hR, hSC⟩⟩)
  · have hIEN := (phase_frame hf s).IEN
    split at hIEN
    next hi => subst hi; exact .inr (.inl ⟨hIEN, hd, SC_eq_three rfl hSC hf⟩)
    next =>
      split at hIEN
      next hi => subst hi; exact .inr (.inr ⟨hIEN, .inl ⟨hd, SC_eq_three rfl hSC hf⟩⟩)
      next => exact .inl hIEN

/-- No timing state writes INPR (R28). -/
theorem stepCycle_INPR {s t : State} (h : stepCycle s = .next t) : t.INPR = s.INPR := by
  rcases stepCycle_shared_or_phase h with hk | ⟨i, p, f, -, -, hf, rfl⟩
  · exact hk.INPR
  · exact (phase_frame hf s).INPR

/-- A flag that no timing state raises is 0 after any number of them, from 0. -/
theorem Cycles.flag_low {flag : State → Bool} {s t : State}
    (hflag : ∀ s t, stepCycle s = .next t → flag t = flag s ∨ flag t = false) (h : Cycles s t)
    (hs : flag s = false) : flag t = false := by
  refine h.preserves (P := fun u => flag u = false) (fun u v huv hu => ?_) hs
  rcases hflag u v huv with hv | hv
  · exact hv.trans hu
  · exact hv

theorem Cycles.INPR_eq {s t : State} (h : Cycles s t) : t.INPR = s.INPR :=
  h.preserves (P := fun u => u.INPR = s.INPR) (fun _ _ huv hu => (stepCycle_INPR huv).trans hu) rfl

/-- From a halted engine timing states lead nowhere else (R101). -/
theorem Cycles.eq_of_halted {s t : State} (h : Cycles s t) (hS : s.S = false) : t = s := by
  refine h.preserves (P := fun u => u = s) (fun u v huv hu => ?_) rfl
  subst hu
  rw [stepCycle_halted hS] at huv
  cases huv
  rfl

/-- A timing state of a running engine clears S exactly as HLT or as the DecodeError state (R161, R202). -/
theorem stepCycle_clears_S_iff {s t : State} (h : stepCycle s = .next t) (hS : s.S = true) :
    t.S = false ↔ s.R = false ∧ s.SC = 3 ∧ (decode s.IR = .ok .hlt ∨ ∃ why, decode s.IR = .error why) := by
  rcases stepCycle_cases h with ⟨hS', -⟩ | ⟨-, hR, hrt⟩ | ⟨-, hR, ht⟩
  · simp [hS] at hS'
  · rcases hrt with ⟨-, rfl⟩ | ⟨-, rfl⟩ | ⟨-, rfl⟩ <;> simp [hS, hR]
  · rcases ht with ⟨hSC, rfl⟩ | ⟨hSC, rfl⟩ | ⟨hSC, rfl⟩ | ⟨hSC, hwhy, rfl⟩ | ⟨hSC, -, ⟨i, hd, hm⟩, rfl⟩ |
      ⟨i, p, f, hd, hSC, hf, rfl⟩
    · simp [hS, hSC]
    · simp [hS, hSC]
    · simp [hS, hSC]
    · simp [hR, hSC, hwhy]
    · have hi : i ≠ .hlt := by rintro rfl; cases hm
      simp [hS, hd, hi]
    · rw [(phase_frame hf s).S]
      by_cases hi : i = .hlt
      · subst hi
        simp [hR, hd, SC_eq_three rfl hSC hf]
      · simp [hi, hS, hd]

end Sys2Proof.Machine

namespace Sys2Proof.Proofs

open Sys2Proof.Machine Sys2Proof.Statements

/-- Settles O36: the shared states keep R but for RT2, and a phase raises it only as the last, by the request test. -/
theorem requestRaisedOnlyAtBoundary : Obligations.RequestRaisedOnlyAtBoundary := by
  intro s t h
  rcases stepCycle_shared_or_phase h with hk | ⟨i, p, f, -, hSC, hf, rfl⟩
  · rcases hk.interrupt with ⟨-, hR⟩ | ⟨hR, hSC, hSC', hIEN, -⟩
    · simp +contextual [hR]
    · simp [hR, hSC, hSC', hIEN]
  · have hlo : 3 ≤ s.SC.toNat := hSC ▸ three_le_phaseSC i s p
    rcases phase_continues_or_ends hf with ⟨-, hf⟩ | ⟨-, hf⟩
    · have hR := (hf s).R
      simp +contextual [hR]
    · have he := hf s
      by_cases hreq : interruptRequest s = true
      · obtain ⟨hIEN, hflag, hR⟩ := interruptRequest_iff.1 hreq
        exact ⟨fun _ _ => ⟨he.SC, hlo, hIEN, hflag⟩, by simp [hR]⟩
      · have hR : (f s).R = s.R := by simpa [hreq] using he.R
        simp +contextual [hR]

/-- Settles O41: the shared states write IR and TR as T1 and RT0, and the phases write what their instruction does. -/
theorem registersWrittenOnlyByTheirStates : Obligations.RegistersWrittenOnlyByTheirStates := by
  intro s t h
  rcases stepCycle_shared_or_phase h with hk | ⟨i, p, f, hd, hSC, hf, rfl⟩
  · exact ⟨hk.IR.resolve_left, hk.TR.resolve_left, absurd hk.AC, absurd hk.DR, absurd hk.E, absurd hk.OUTR, hk.INPR⟩
  · have hlo : 3 ≤ s.SC.toNat := hSC ▸ three_le_phaseSC i s p
    have hframe := phase_frame hf s
    obtain ⟨hAC, hDR, hE⟩ := phase_keeps_unwritten hf s
    refine ⟨absurd hframe.IR, absurd hframe.TR, fun hne => ⟨i, hd, hlo, by simpa using mt hAC hne⟩,
      fun hne => ⟨i, hd, hlo, by simpa using mt hDR hne⟩, fun hne => ⟨i, hd, hlo, by simpa using mt hE hne⟩,
      fun hne => ?_, hframe.INPR⟩
    have hout : i = .out := by
      by_contra hi
      exact hne (by simpa [hi] using hframe.OUTR)
    subst hout
    exact ⟨hd, SC_eq_three rfl hSC hf⟩

/-- Settles O43: over the host moves, and over timing states. -/
theorem ioFlagWriters : Obligations.IoFlagWriters := by
  refine ⟨fun m s t h => ?_, fun s t h => ⟨fun hs ht => ?_, fun hs ht => ?_, fun hs ht => ?_, fun hs ht => ?_⟩⟩
  · rcases perform_cases h with ⟨program, data, origin, rfl, hload⟩ | ⟨b, rfl, rfl⟩ | ⟨rfl, rfl⟩ | hcycles
    · obtain ⟨-, rfl⟩ := load_ok hload
      exact ⟨fun _ => nofun, fun _ => nofun, fun _ => .inr ⟨program, data, origin, rfl⟩⟩
    · exact ⟨fun _ _ => ⟨b, rfl⟩, fun hs ht => absurd (hs.symm.trans ht) nofun, fun _ => .inl ⟨b, rfl⟩⟩
    · exact ⟨fun hs ht => absurd (hs.symm.trans ht) nofun, fun _ _ => rfl, absurd rfl⟩
    · refine ⟨fun hs ht => ?_, fun hs ht => ?_, absurd hcycles.INPR_eq⟩
      · have hlow := hcycles.flag_low (flag := State.FGI) (fun _ _ h => (stepCycle_FGI h).imp_right And.left) hs
        exact absurd (hlow.symm.trans ht) nofun
      · have hlow := hcycles.flag_low (flag := State.FGO) (fun _ _ h => (stepCycle_FGO h).imp_right And.left) hs
        exact absurd (hlow.symm.trans ht) nofun
  · rcases stepCycle_FGI h with hkeep | ⟨-, hinp⟩
    · simp [hkeep, hs] at ht
    · exact hinp
  · rcases stepCycle_FGO h with hkeep | ⟨-, hout⟩
    · simp [hkeep, hs] at ht
    · exact hout
  · rcases stepCycle_IEN h with hkeep | ⟨-, hion⟩ | ⟨hclear, -⟩
    · simp [hkeep, hs] at ht
    · exact hion
    · simp [hclear] at ht
  · rcases stepCycle_IEN h with hkeep | ⟨hset, -⟩ | ⟨-, hclear⟩
    · simp [hkeep, hs] at ht
    · simp [hset] at ht
    · exact hclear

end Sys2Proof.Proofs

/-! ### What an instruction does not read

An instruction is T2, perhaps the indirect state, and its phases; an update of the state that commutes with each of these
commutes with the instruction, so the instruction neither reads nor writes what the update writes. -/

namespace Sys2Proof.Machine

open Laws.EncodeFields (indirect field)

/-- An update that every one of the states commutes with goes through their performance. -/
theorem performAll_comm {g : State → State} {states : List (State → State)} (h : ∀ f ∈ states, ∀ s, f (g s) = g (f s))
    (s : State) : performAll states (g s) = g (performAll states s) := by
  induction states generalizing s with
  | nil => rfl
  | cons f rest ih =>
    rw [performAll_cons, performAll_cons, h f (by simp)]
    exact ih (fun f' hf' => h f' (by simp [hf'])) (f s)

/-- An update that T2, the indirect state and the phases of `i` commute with, `i` commutes with. -/
theorem exec_comm {g : State → State} {i : Instr} {s t : State}
    (hT2 : ∀ ind a s, latchFields ind a (g s) = g (latchFields ind a s))
    (hindirect : ∀ s, indirectState (g s) = g (indirectState s))
    (hphases : ∀ (p : Nat) (f : State → State), (phasesOf i)[p]? = some f → ∀ s, f (g s) = g (f s)) (h : exec i s = .next t) :
    exec i (g s) = .next (g t) := by
  have hstates : ∀ f ∈ withIndirect (i.isMemoryReference && indirect i) (phasesOf i), ∀ s, f (g s) = g (f s) := by
    have hin {f : State → State} (hf : f ∈ phasesOf i) : ∀ s, f (g s) = g (f s) := by
      obtain ⟨p, hp⟩ := List.mem_iff_getElem?.1 hf
      exact hphases p f hp
    intro f hf
    unfold withIndirect at hf
    split at hf
    · rcases List.mem_cons.1 hf with rfl | hf
      · exact hindirect
      · exact hin hf
    · exact hin hf
  rw [exec_eq] at h ⊢
  cases h
  rw [hT2, performAll_comm hstates]

/-- No instruction reads TR (R27). -/
theorem exec_TR {i : Instr} {s t : State} (h : exec i s = .next t) (x : Word) :
    exec i { s with TR := x } = .next { t with TR := x } := by
  refine exec_comm (g := fun u => { u with TR := x }) (fun _ _ _ => rfl) (fun _ => rfl) (fun p f hf => ?_) h
  refine phases_induction (P := fun _ _ f => ∀ s : State, f { s with TR := x } = { f s with TR := x })
    ?memory ?register ?inputOutput hf
  case memory => intro ind a; and_intros <;> exact fun _ => rfl
  case register => and_intros <;> exact fun _ => rfl
  case inputOutput => and_intros <;> exact fun _ => rfl

/-- No instruction but INP reads INPR (R28). -/
theorem exec_INPR {i : Instr} {s t : State} (hi : i ≠ .inp) (h : exec i s = .next t) (x : IoByte) :
    exec i { s with INPR := x } = .next { t with INPR := x } := by
  refine exec_comm (g := fun u => { u with INPR := x }) (fun _ _ _ => rfl) (fun _ => rfl) (fun p f hf => ?_) h
  refine phases_induction (P := fun i _ f => i ≠ .inp → ∀ s : State, f { s with INPR := x } = { f s with INPR := x })
    ?memory ?register ?inputOutput hf hi
  case memory => intro ind a; and_intros <;> exact fun _ _ => rfl
  case register => and_intros <;> exact fun _ _ => rfl
  case inputOutput => exact ⟨absurd rfl, by and_intros <;> exact fun _ _ => rfl⟩

/-- No instruction reads OUTR, and only OUT writes it (R29). -/
theorem exec_OUTR {i : Instr} {s t : State} (h : exec i s = .next t) (x : IoByte) :
    exec i { s with OUTR := x } = .next (if i = .out then t else { t with OUTR := x }) := by
  by_cases hi : i = .out
  · subst hi
    rw [exec_out] at h ⊢
    cases h
    rfl
  · rw [if_neg hi]
    refine exec_comm (g := fun u => { u with OUTR := x }) (fun _ _ _ => rfl) (fun _ => rfl) (fun p f hf => ?_) h
    refine phases_induction (P := fun i _ f => i ≠ .out → ∀ s : State, f { s with OUTR := x } = { f s with OUTR := x })
      ?memory ?register ?inputOutput hf hi
    case memory => intro ind a; and_intros <;> exact fun _ _ => rfl
    case register => and_intros <;> exact fun _ _ => rfl
    case inputOutput => exact ⟨fun _ _ => rfl, absurd rfl, by and_intros <;> exact fun _ _ => rfl⟩

/-- No instruction reads S, and only HLT writes it (R33). -/
theorem exec_S {i : Instr} {s t : State} (h : exec i s = .next t) (x : Bool) :
    exec i { s with S := x } = .next { t with S := if i = .hlt then false else x } := by
  by_cases hi : i = .hlt
  · subst hi
    rw [exec_hlt] at h ⊢
    cases h
    rfl
  · rw [if_neg hi]
    refine exec_comm (g := fun u => { u with S := x }) (fun _ _ _ => rfl) (fun _ => rfl) (fun p f hf => ?_) h
    refine phases_induction (P := fun i _ f => i ≠ .hlt → ∀ s : State, f { s with S := x } = { f s with S := x })
      ?memory ?register ?inputOutput hf hi
    case memory => intro ind a; and_intros <;> exact fun _ _ => rfl
    case register =>
      refine ⟨?_, ?_, ?_, ?_, ?_, ?_, ?_, ?_, ?_, ?_, ?_, absurd rfl⟩ <;> exact fun _ _ => rfl
    case inputOutput => and_intros <;> exact fun _ _ => rfl

end Sys2Proof.Machine

/-! ### Skips and the end of an instruction -/

namespace Sys2Proof.Machine

open Sys2Proof.Statements

/-- `end_instruction` after a state that began with the flags of `s`: SC, R and the count are what R112 says of `s`. -/
theorem endsInstruction_endInstruction {s before after : State} (hIEN : before.IEN = s.IEN) (hFGI : before.FGI = s.FGI)
    (hFGO : before.FGO = s.FGO) (hR : before.R = s.R) (hR' : after.R = s.R)
    (hcount : after.profiler.instructions = s.profiler.instructions) :
    endsInstruction s (State.endInstruction before after) := by
  refine ⟨rfl, ?_, by simp [hcount]⟩
  unfold requestRule
  rw [State.endInstruction_R, interruptRequest_congr hIEN hFGI hFGO hR, hR']
  simp only [interruptRequest_iff]

/-- A skip instruction's T3, after its T2: PC goes one further, modulo 4096, exactly when its condition holds (R163), and
the instruction ends. -/
theorem skip_spec {condition : Prop} {c : Bool} (hc : c = true ↔ condition) (ind : Bool) (a : Addr) (s : State) :
    let t := State.endInstruction (latchFields ind a s) (State.skipIf c (latchFields ind a s))
    skipsWhen condition s t ∧ endsInstruction s t := by
  refine ⟨⟨fun h => ?_, fun h => ?_⟩, endsInstruction_endInstruction rfl rfl rfl rfl rfl rfl⟩
  · simp [hc.2 h, BitVec.toNat_add]
  · simp [mt hc.1 h]

end Sys2Proof.Machine

/-! ### The observers -/

namespace Sys2Proof.Machine

/-- `read_register` answers each of the 16 names with its own register (R45). -/
theorem readRegister_spelling (r : RegName) (s : State) : readRegister r.spelling s = .ok (r.value s) := by
  cases r <;> rfl

/-- A name that spells no register is unknown (R204). -/
theorem readRegister_unknown {name : String} (h : ∀ r : RegName, r.spelling ≠ name) (s : State) :
    readRegister name s = .error (.unknownRegister name) := by
  have hnone : RegName.all.find? (fun r => r.spelling == name) = none :=
    List.find?_eq_none.2 fun r _ => by simpa using h r
  simp [readRegister, hnone]

/-- A flag reads as 0 or 1 (R45). -/
theorem flagWord_eq (b : Bool) : flagWord b = if b then 1 else 0 := by
  cases b <;> rfl

theorem readMemory_of_lt {address count : Nat} (h : 4096 < address + count) (s : State) :
    readMemory address count s = .error (.addressOutOfRange address count) := if_pos h

theorem readMemory_of_le {address count : Nat} (h : address + count ≤ 4096) (s : State) :
    readMemory address count s = .ok ((List.range count).map fun k => s.M.read (address + k)) := if_neg (Nat.not_lt.2 h)

end Sys2Proof.Machine

namespace Sys2Proof.Proofs

open Sys2Proof.Machine Sys2Proof.Statements

/-- Settles O27: each skip instruction's condition is the one R22, R160, R172 and R173 give it. -/
theorem skipConditions : Obligations.SkipConditions := by
  intro s
  have spa := skip_spec (c := !signBit s.AC) (condition := s.AC.getLsbD 15 = false) (by simp [signBit]) false 0x010 s
  have sna := skip_spec (c := signBit s.AC) (condition := s.AC.getLsbD 15 = true) Iff.rfl false 0x008 s
  have sza := skip_spec (c := isZero s.AC) (condition := s.AC = 0) (by simp [isZero]) false 0x004 s
  have sze := skip_spec (c := !s.E) (condition := s.E = false) (by simp) false 0x002 s
  have ski := skip_spec (c := s.FGI) Iff.rfl true 0x200 s
  have sko := skip_spec (c := s.FGO) Iff.rfl true 0x100 s
  exact ⟨⟨_, exec_spa s, spa⟩, ⟨_, exec_sna s, sna⟩, ⟨_, exec_sza s, sza⟩, ⟨_, exec_sze s, sze⟩,
    ⟨_, exec_ski s, ski.1, rfl, ski.2⟩, ⟨_, exec_sko s, sko.1, rfl, sko.2⟩⟩

/-- Settles O42: only a load leaves a halted engine, and the phases write S as HLT alone. -/
theorem runFlagWriters : Obligations.RunFlagWriters := by
  refine ⟨fun m s t h hs ht => ?_, fun program data origin t h => ?_, rfl, fun s t => stepCycle_clears_S_iff,
    fun s => stepCycle_halted, fun i s t x h => exec_S h x⟩
  · rcases perform_cases h with ⟨program, data, origin, hm, -⟩ | ⟨b, -, rfl⟩ | ⟨-, rfl⟩ | hcycles
    · exact ⟨program, data, origin, hm⟩
    · exact absurd (hs.symm.trans ht) nofun
    · exact absurd (hs.symm.trans ht) nofun
    · rw [hcycles.eq_of_halted hs, hs] at ht
      cases ht
  · obtain ⟨-, rfl⟩ := load_ok h
    rfl

/-- Settles O44: the updates of TR, of INPR and of OUTR commute with the instructions. -/
theorem idleRegistersDoNotInterfere : Obligations.IdleRegistersDoNotInterfere :=
  fun _ _ _ h => ⟨exec_TR h, fun x hi => exec_INPR hi h x, exec_OUTR h⟩

/-- Settles O55: the names, the words and the quotient. -/
theorem observersAnswer : Obligations.ObserversAnswer := by
  refine ⟨readRegister_spelling, fun s => ?names, fun name s hname => ?unknown, fun address count s => ?words,
    fun s => ?quotient⟩
  case names =>
    simp only [← flagWord_eq]
    exact ⟨readRegister_spelling .AC s, readRegister_spelling .DR s, readRegister_spelling .AR s,
      readRegister_spelling .PC s, readRegister_spelling .IR s, readRegister_spelling .TR s,
      readRegister_spelling .OUTR s, readRegister_spelling .INPR s, readRegister_spelling .SC s,
      readRegister_spelling .E s, readRegister_spelling .S s, readRegister_spelling .IEN s, readRegister_spelling .R s,
      readRegister_spelling .FGI s, readRegister_spelling .FGO s, readRegister_spelling .I s⟩
  case unknown =>
    refine readRegister_unknown (fun r hr => hname ?_) s
    subst hr
    cases r <;> simp [RegName.spelling]
  case words =>
    refine ⟨fun h => readMemory_of_lt h s, fun h => ⟨_, readMemory_of_le h s, by simp, fun k hk => ?_⟩⟩
    simp [hk]
  case quotient =>
    refine ⟨fun h => by simp [profilerSnapshot, h], fun h => ?_⟩
    have hne : (s.profiler.instructions : Rat) ≠ 0 := Nat.cast_ne_zero.2 h
    exact ⟨_, if_neg h, div_mul_cancel₀ _ hne⟩

end Sys2Proof.Proofs

/-! ### The memory bank and the fetch

The bank's range check is on the address alone; an engine access always passes it (20_memory.md rules R52 to R54). What
is in M at the address PC holds at a boundary is what T0 and T1 fetch from there, whoever stored it (R62, R65). -/

namespace Sys2Proof.Machine

open Sys2Proof.Statements

theorem Memory.bankRead_of_lt {address : Nat} (h : address < Config.memWords) (m : Memory) :
    m.bankRead address = .ok (m.read address) := if_pos h

theorem Memory.bankWrite_of_lt {address : Nat} (h : address < Config.memWords) (m : Memory) (v : Word) :
    m.bankWrite address v = .ok (m.set address v) := if_pos h

/-- The bank's read fails exactly on an address past the bank (R53). -/
theorem Memory.bankRead_fails_iff (m : Memory) (address : Nat) :
    (∃ e, m.bankRead address = .error e) ↔ Config.memWords ≤ address := by
  by_cases h : address < Config.memWords
  · simp [Memory.bankRead_of_lt h, h]
  · simp [Memory.bankRead, h, Nat.le_of_not_lt h]

/-- The bank's write fails exactly there too (R54). -/
theorem Memory.bankWrite_fails_iff (m : Memory) (address : Nat) (v : Word) :
    (∃ e, m.bankWrite address v = .error e) ↔ Config.memWords ≤ address := by
  by_cases h : address < Config.memWords
  · simp [Memory.bankWrite_of_lt h, h]
  · simp [Memory.bankWrite, h, Nat.le_of_not_lt h]

/-- T0 and T1 at a boundary fetch the word at the address PC holds (R102, R103). -/
theorem fetches_of_readyToFetch {s : State} (h : readyToFetch s) : fetches s (s.M.read s.PC.toNat) := by
  obtain ⟨hS, hR, hSC⟩ := h
  exact ⟨t0 s, t1 (t0 s), stepCycle_t0 hS hR hSC, stepCycle_t1 (s := t0 s) hS hR rfl, rfl, rfl⟩

/-- Where the interrupt cycle is about to begin, a step performs it and nothing else (R213, R234). -/
theorem step_interruptCycle {s : State} (hS : s.S = true) (hR : s.R = true) (hSC : s.SC = 0) :
    step s = .next (interruptCycle s) := by
  have hpending : pendingStates s = interruptStates := by rw [pendingStates_interrupt hR, hSC]; rfl
  have hend : foldInterrupt (interruptCycle s) = interruptCycle s :=
    foldInterrupt_of_not (by simp [interruptCycle_eq])
  rw [step_inProgress hS (.inl hR), hpending, ← hend]
  rfl

/-- After the interrupt cycle the engine fetches the word at the handler's entry, which the cycle's store to address 0
leaves as it was (R215, R216). -/
theorem fetches_interruptCycle {s : State} (hS : s.S = true) :
    fetches (interruptCycle s) (s.M.read Config.interruptEntry.toNat) := by
  have hready : readyToFetch (interruptCycle s) := ⟨hS, rfl, rfl⟩
  have hkeep : (interruptCycle s).M.read Config.interruptEntry.toNat = s.M.read Config.interruptEntry.toNat := by
    rw [interruptCycle_eq]
    exact Memory.read_set_other s.M _ (by decide)
  rw [← hkeep]
  exact fetches_of_readyToFetch hready

/-- A word that stands in memory is the one a later fetch from its address gets, a handler's first fetch included. -/
theorem storeIsFetched_of_read {t : State} {address : Addr} {w : Word} (h : t.M.read address.toNat = w) :
    storeIsFetched t address w := by
  subst h
  refine ⟨fun u hM hready hPC => ?_, fun hS hR hSC haddress => ?_⟩
  · rw [← hM, ← hPC]
    exact fetches_of_readyToFetch hready
  · subst haddress
    exact ⟨_, step_interruptCycle hS hR hSC, fetches_interruptCycle hS⟩

/-- A state that has set address `a` of a canonical memory to `v` has that word fetched from there. -/
theorem storeIsFetched_of_set {t : State} {m : Memory} {a : Addr} {v : Word} (hm : m.wf = true)
    (ht : t.M = m.set a.toNat v) : storeIsFetched t a v :=
  storeIsFetched_of_read (by rw [ht, Memory.read_set_same hm])

/-- Where interrupts are disabled, `end_instruction` leaves a running engine ready to fetch (R112, R211). -/
theorem readyToFetch_endInstruction {before after : State} (hIEN : before.IEN = false) (hS : after.S = true)
    (hR : after.R = false) : readyToFetch (State.endInstruction before after) :=
  ⟨hS, by simp [interruptRequest, hIEN, hR], rfl⟩

/-- The word the last state of ISZ stores is the operand plus 1 (R142, R143). -/
theorem iszStore_M (ind : Bool) (a : Addr) (s : State) :
    (iszStore (iszIncrement (fetchOperand (operandState ind a s)))).M =
      s.M.set (ea ind a s).toNat (operand ind a s + 1) := by
  simp [iszStore, iszIncrement, operand, State.word]

end Sys2Proof.Machine

namespace Sys2Proof.Proofs

open Sys2Proof.Machine Sys2Proof.Statements

/-- Settles O45: each store sets one address of M, and a fetch reads M at PC. -/
theorem fetchSeesPrecedingStore : Obligations.FetchSeesPrecedingStore := by
  refine ⟨fun ind a s hwf => ⟨⟨_, exec_sta ind a s, ?sta⟩, ⟨_, exec_bsa ind a s, ?bsa⟩, ⟨_, exec_isz ind a s, ?isz⟩⟩,
    fun s hwf hS hR hSC => ⟨_, step_interruptCycle hS hR hSC, storeIsFetched_of_set hwf rfl⟩⟩
  case sta =>
    have hstore : storeIsFetched (staStore (operandState ind a s)) (ea ind a s) s.AC :=
      storeIsFetched_of_set hwf (by simp [staStore])
    refine ⟨hstore, fun hS hR hIEN hPC => hstore.1 _ rfl ?_ (by simp [staStore, hPC])⟩
    exact readyToFetch_endInstruction (by simp [hIEN]) (by simp [hS]) (by simp [hR])
  case bsa => exact storeIsFetched_of_set hwf (by simp [bsaSave])
  case isz =>
    have hstore := storeIsFetched_of_set hwf (iszStore_M ind a s)
    refine ⟨hstore, fun hS hR hIEN hPC => hstore.1 _ rfl ?_ hPC⟩
    exact readyToFetch_endInstruction (by simp [iszIncrement, hIEN]) (by simp [iszIncrement, hS])
      (by simp [iszIncrement, hR])

/-- Settles O56: the check is `address < 4096`, which every 12-bit address passes. -/
theorem memoryBankContract : Obligations.MemoryBankContract := by
  refine ⟨fun m address v => ⟨m.bankRead_fails_iff address, fun h => ?read, m.bankWrite_fails_iff address v,
    fun h hwf => ?write⟩, fun s a v => ?engine⟩
  case read => exact m.bankRead_of_lt (Nat.lt_succ_of_le h)
  case write =>
    have hlt : address < Config.memWords := Nat.lt_succ_of_le h
    exact ⟨_, m.bankWrite_of_lt hlt v, Memory.wf_set hwf hlt v, Memory.read_set_same hwf address v,
      fun b hb => m.read_set_other v hb⟩
  case engine =>
    have hlt := Addr.toNat_lt_memWords a
    exact ⟨s.M.bankRead_of_lt hlt, s.M.bankWrite_of_lt hlt v⟩

end Sys2Proof.Proofs

/-! ### Encoding and decoding

An instruction's word is the one with its three fields, so a legal word and its meaning determine each other
(30_encoding.md rules R71 to R79). With opcode 7, decoding looks the selector up in the table of its class, whose rows
are the powers of 2 that R76 and R77 name. -/

namespace Sys2Proof

open Laws.EncodeFields (opcode indirect field)
open Sys2Proof.Statements

/-- The word of an instruction is the word with the instruction's three fields (R71, R73, R76, R77). -/
theorem encode_eq_instructionWord (i : Instr) : encode i = instructionWord (indirect i) (opcode i) (field i) := by
  cases i <;> rfl

/-- The number an instruction word stands for, field by field (R71). -/
theorem toNat_instructionWord (ind : Bool) (op : BitVec 3) (a : Addr) :
    (instructionWord ind op a).toNat = ind.toNat * 0x8000 + op.toNat * 0x1000 + a.toNat := by
  have hlow : (op ++ a : BitVec (3 + 12)).toNat = op.toNat * 0x1000 + a.toNat := by
    rw [BitVec.toNat_append, ← Nat.shiftLeft_add_eq_or_of_lt a.isLt, Nat.shiftLeft_eq]
  have hcons : (instructionWord ind op a).toNat = ind.toNat <<< 15 ||| (op ++ a : BitVec (3 + 12)).toNat :=
    BitVec.toNat_cons ind (op ++ a : BitVec (3 + 12))
  rw [hcons, ← Nat.shiftLeft_add_eq_or_of_lt (op ++ a : BitVec (3 + 12)).isLt, hlow, Nat.shiftLeft_eq, Nat.add_assoc]

/-! #### `decode`, class by class -/

/-- A word whose fields name a row of R73 decodes to that row's instruction. -/
theorem decode_instructionWord {op : BitVec 3} {ind : Bool} {a : Addr} {i : Instr}
    (h : memoryReference? op ind a = some i) : decode (instructionWord ind op a) = .ok i := by
  simp [decode, h]

/-- With opcode 7 and I = 0 the selector is looked up in the table of R76. -/
theorem decode_registerReference {w : Word} (h7 : opcodeField w = 7) (hI : indirectBit w = false) :
    decode w = (registerReferenceTable.lookup (addressField w)).elim (.error .registerReferenceSelector) .ok := by
  simp only [decode, h7, hI]
  cases registerReferenceTable.lookup (addressField w) <;> rfl

/-- With opcode 7 and I = 1 the selector is looked up in the table of R77. -/
theorem decode_inputOutput {w : Word} (h7 : opcodeField w = 7) (hI : indirectBit w = true) :
    decode w = (inputOutputTable.lookup (addressField w)).elim (.error .inputOutputSelector) .ok := by
  simp only [decode, h7, hI]
  cases inputOutputTable.lookup (addressField w) <;> rfl

/-- What a table's lookup decodes to is legal exactly when the lookup finds a row. -/
theorem exists_elim_eq_ok_iff {o : Option Instr} {why : IllegalWord} :
    (∃ i, o.elim (Except.error why) Except.ok = .ok i) ↔ ∃ i, o = some i := by
  cases o <;> simp

/-- The only error a table's lookup gives is the one of its class. -/
theorem eq_of_elim_eq_error {o : Option Instr} {why error : IllegalWord}
    (h : o.elim (Except.error error) Except.ok = .error why) : error = why := by
  cases o <;> cases h
  rfl

/-- An illegal word has opcode 7, and the name of its class tells its bit 15 (R78). -/
theorem fields_of_decode_error {w : Word} {why : IllegalWord} (h : decode w = .error why) :
    opcodeField w = 7 ∧ indirectBit w = decide (why = .inputOutputSelector) := by
  have h7 : opcodeField w = 7 := by
    by_contra hne
    obtain ⟨i, hi, -⟩ := Machine.decode_memoryReference hne
    cases hi.symm.trans h
  refine ⟨h7, ?_⟩
  cases hI : indirectBit w with
  | false =>
    cases eq_of_elim_eq_error ((decode_registerReference h7 hI).symm.trans h)
    rfl
  | true =>
    cases eq_of_elim_eq_error ((decode_inputOutput h7 hI).symm.trans h)
    rfl

/-! #### Selectors -/

theorem getLsbD_twoPow_of_lt {k : Nat} (hk : k < 12) (j : Nat) : (BitVec.twoPow 12 k).getLsbD j = decide (j = k) := by
  simp only [BitVec.getLsbD_twoPow, hk, decide_true, Bool.true_and, eq_comm]

/-- A word has bit `k` as its only selector bit when its field is 2 to the `k`. -/
theorem onlySelectorBit_iff {w : Word} {k : Nat} :
    onlySelectorBit w k ↔ k < 12 ∧ addressField w = BitVec.twoPow 12 k := by
  refine and_congr_right fun hk => ?_
  have hbit {j : Nat} (hj : j < 12) : (addressField w).getLsbD j = w.getLsbD j := by
    rw [getLsbD_addressField, decide_eq_true hj, Bool.true_and]
  constructor
  · refine fun h => BitVec.eq_of_getLsbD_eq fun j hj => ?_
    rw [hbit hj, getLsbD_twoPow_of_lt hk, Bool.eq_iff_iff, h j hj, decide_eq_true_iff]
  · intro h j hj
    rw [← hbit hj, h, getLsbD_twoPow_of_lt hk, decide_eq_true_iff]

/-- A lookup succeeds exactly on the selectors of the table's rows. -/
theorem exists_lookup_iff {table : List (Addr × Instr)} {a : Addr} :
    (∃ i, table.lookup a = some i) ↔ a ∈ table.map Prod.fst := by
  rw [← Option.isSome_iff_exists, List.lookup_isSome_iff]
  simp

/-- The selectors of R76 are 2 to the 0 up to 2 to the 11 (D1). -/
theorem registerReference_lookup_iff {a : Addr} :
    (∃ i, registerReferenceTable.lookup a = some i) ↔ ∃ k, k < 12 ∧ a = BitVec.twoPow 12 k := by
  have hkeys : registerReferenceTable.map Prod.fst = (List.range 12).reverse.map (BitVec.twoPow 12) := by decide
  rw [exists_lookup_iff, hkeys]
  simp [eq_comm]

/-- The selectors of R77 are 2 to the 6 up to 2 to the 11 (D1, D10). -/
theorem inputOutput_lookup_iff {a : Addr} :
    (∃ i, inputOutputTable.lookup a = some i) ↔ ∃ k, 6 ≤ k ∧ k < 12 ∧ a = BitVec.twoPow 12 k := by
  have hkeys : inputOutputTable.map Prod.fst = (List.range' 6 6).reverse.map (BitVec.twoPow 12) := by decide
  rw [exists_lookup_iff, hkeys]
  simp [eq_comm, and_assoc]

/-- R78, first item: a register-reference word is legal when exactly one selector bit is set. -/
theorem exists_decode_registerReference_iff {w : Word} (h7 : opcodeField w = 7) (hI : indirectBit w = false) :
    (∃ i, decode w = .ok i) ↔ ∃ k, onlySelectorBit w k := by
  simp only [decode_registerReference h7 hI, exists_elim_eq_ok_iff, registerReference_lookup_iff, onlySelectorBit_iff]

/-- R78, second item: an input/output word is legal when exactly one selector bit is set, in bits 11 to 6. -/
theorem exists_decode_inputOutput_iff {w : Word} (h7 : opcodeField w = 7) (hI : indirectBit w = true) :
    (∃ i, decode w = .ok i) ↔ ∃ k, 6 ≤ k ∧ onlySelectorBit w k := by
  simp only [decode_inputOutput h7 hI, exists_elim_eq_ok_iff, inputOutput_lookup_iff, onlySelectorBit_iff]

/-! #### The round trip -/

theorem decode_encode (i : Instr) : decode (encode i) = .ok i := by
  cases i with
  | and | add | lda | sta | bun | bsa | isz => exact decode_instructionWord rfl
  | cla | cle | cma | cme | cir | cil | inc | spa | sna | sza | sze | hlt | inp | out | ski | sko | ion | iof => rfl

/-- A word with opcode 0 to 6 is legal, whatever its other fields (R78). -/
theorem legalWord_instructionWord {op : BitVec 3} (hop : op ≠ 7) (ind : Bool) (a : Addr) :
    legalWord (instructionWord ind op a) = true := by
  have h : (instructionWord ind op a).extractLsb' 12 3 = op := opcodeField_instructionWord ind op a
  exact if_pos (by rw [h]; simpa using hop)

/-- Every instruction's word is legal (R78), so every instruction is well formed. -/
theorem Instr.wf_eq_true (i : Instr) : i.wf = true := by
  cases i with
  | and ind a | add ind a | lda ind a | sta ind a | bun ind a | bsa ind a | isz ind a =>
    exact legalWord_instructionWord (by decide) ind a
  | cla | cle | cma | cme | cir | cil | inc | spa | sna | sza | sze | hlt | inp | out | ski | sko | ion | iof => rfl

theorem encode_of_decode {w : Word} {i : Instr} (h : decode w = .ok i) : encode i = w := by
  obtain ⟨hop, hind, hfield⟩ := fields_of_decode h
  rw [encode_eq_instructionWord, ← hop, ← hind, ← hfield, instructionWord_fields]

end Sys2Proof

namespace Sys2Proof.Proofs

open Sys2Proof.Statements

/-- Settles O1: the memory-reference words field by field, the 18 selector words one by one. -/
theorem decodeEncodeRoundTrip : Obligations.DecodeEncodeRoundTrip :=
  fun i => ⟨i.wf_eq_true, decode_encode i⟩

/-- Settles O2: the word and its meaning have the same three fields. -/
theorem encodeDecodeRoundTrip : Obligations.EncodeDecodeRoundTrip :=
  fun _ _ => encode_of_decode

/-- Settles O3, by the word's class: its opcode, then its bit 15. -/
theorem illegalWordsAreExactlyThose : Obligations.IllegalWordsAreExactlyThose := by
  intro w
  change (_ ↔ opcodeField w ≠ 7 ∨ (indirectBit w = false ∧ _) ∨ (indirectBit w = true ∧ _)) ∧
    (_ → opcodeField w = 7 ∧ indirectBit w = false) ∧ (_ → opcodeField w = 7 ∧ indirectBit w = true)
  refine ⟨?_, fields_of_decode_error, fields_of_decode_error⟩
  by_cases h7 : opcodeField w = 7
  · cases hI : indirectBit w with
    | false => simp [h7, exists_decode_registerReference_iff h7 hI]
    | true => simp [h7, exists_decode_inputOutput_iff h7 hI]
  · obtain ⟨i, hi, -⟩ := Machine.decode_memoryReference h7
    exact iff_of_true ⟨i, hi⟩ (.inl h7)

/-- Settles O4: the word's number is the sum of its fields' at their places. -/
theorem memoryReferenceWords : Obligations.MemoryReferenceWords := by
  intro a
  simp [encode, toNat_instructionWord]

/-- Settles O5: the samples are closed words, so `decode` evaluates on each. -/
theorem sampleWordsDecode : Obligations.SampleWordsDecode := by
  unfold Obligations.SampleWordsDecode
  decide

end Sys2Proof.Proofs

/-! ### The instruction cycle (40_instruction_cycle.md)

Between two timing states of an instruction only six states can have run: every other one ends it. -/

namespace Sys2Proof.Machine

open Sys2Proof.Statements

/-- Where no interrupt cycle runs, the timing state performed next is a fetch state, the DecodeError state, the indirect
state or an execution phase (R100, R105, R202). -/
theorem timingState?_cases {s : State} {f : State → State} (hR : s.R = false) (hf : timingState? s = some f) :
    f ∈ fetchStates ∨ f = decodeErrorState ∨ f = indirectState ∨ ∃ (i : Instr) (p : Nat), (phasesOf i)[p]? = some f := by
  by_cases hlt : s.SC.toNat < 3
  · have hget : fetchStates[s.SC.toNat]? = some f := by simpa [timingState?, hR, hlt] using hf
    exact .inl (List.mem_of_getElem? hget)
  · cases hd : decode s.IR with
    | error why =>
      have herr : s.SC.toNat = 3 ∧ decodeErrorState = f := by simpa [timingState?, hR, hlt, hd] using hf
      exact .inr (.inl herr.2.symm)
    | ok i =>
      have hget : (statesAfterDecode i s)[s.SC.toNat - 3]? = some f := by simpa [timingState?, hR, hlt, hd] using hf
      rcases statesAfterDecode_get hget with ⟨-, -, -, hind⟩ | ⟨p, -, hphase⟩
      · exact .inr (.inr (.inl hind))
      · exact .inr (.inr (.inr ⟨i, p, hphase⟩))

/-- A phase is the operand fetch, the increment of ISZ, or one that ends its instruction (R108, R109). -/
theorem phase_cases {i : Instr} {p : Nat} {f : State → State} (hf : (phasesOf i)[p]? = some f) :
    f = fetchOperand ∨ f = iszIncrement ∨ ∀ s, (f s).SC = 0 := by
  refine phases_induction (P := fun _ _ f => f = fetchOperand ∨ f = iszIncrement ∨ ∀ s, (f s).SC = 0)
    ?memory ?register ?inputOutput hf
  case memory =>
    intro ind a
    exact ⟨.inl rfl, .inr (.inr fun _ => rfl), .inl rfl, .inr (.inr fun _ => rfl), .inl rfl, .inr (.inr fun _ => rfl),
      .inr (.inr fun _ => rfl), .inr (.inr fun _ => rfl), .inr (.inr fun _ => rfl), .inl rfl, .inr (.inl rfl),
      .inr (.inr fun _ => rfl)⟩
  case register => and_intros <;> exact .inr (.inr fun _ => rfl)
  case inputOutput => and_intros <;> exact .inr (.inr fun _ => rfl)

/-- The timing states of an instruction that do not end it (R102 to R108). -/
def unfinishedStates : List (State → State) := fetchStates ++ [indirectState, fetchOperand, iszIncrement]

theorem forall_mem_unfinishedStates {P : (State → State) → Prop} (hT0 : P t0) (hT1 : P t1) (hT2 : P t2)
    (hindirect : P indirectState) (hoperand : P fetchOperand) (hincrement : P iszIncrement) :
    ∀ f ∈ unfinishedStates, P f := by
  simp [unfinishedStates, fetchStates, hT0, hT1, hT2, hindirect, hoperand, hincrement]

/-- A timing state of an instruction that does not end at SC = 0 is one of those. -/
theorem mem_unfinishedStates {s : State} {f : State → State} (hR : s.R = false) (hf : timingState? s = some f)
    (hSC : (f s).SC ≠ 0) : f ∈ unfinishedStates := by
  rcases timingState?_cases hR hf with hfetch | rfl | rfl | ⟨i, p, hphase⟩
  · exact List.mem_append_left _ hfetch
  · exact absurd rfl hSC
  · simp [unfinishedStates]
  · rcases phase_cases hphase with rfl | rfl | hend
    · simp [unfinishedStates]
    · simp [unfinishedStates]
    · exact absurd (hend s) hSC

/-- The timing state that a running engine performed (R100). -/
theorem timingState?_of_stepCycle {s t : State} (hS : s.S = true) (h : stepCycle s = .next t) :
    ∃ f, timingState? s = some f ∧ t = f s := by
  obtain ⟨f, hf⟩ := Option.isSome_iff_exists.1 (timingState_isSome hS h)
  cases (stepCycle_of_timingState? hS hf).symm.trans h
  exact ⟨f, hf, rfl⟩

/-- An update that leaves the control alone and commutes with the states that do not end an instruction commutes with
every timing state but an instruction's last. -/
theorem stepCycle_comm {g : State → State} {s t : State} (hcontrol : timingState? (g s) = timingState? s)
    (hrun : (g s).S = s.S) (hcomm : ∀ f ∈ unfinishedStates, f (g s) = g (f s)) (hS : s.S = true) (hR : s.R = false)
    (h : stepCycle s = .next t) (hSC : t.SC ≠ 0) : stepCycle (g s) = .next (g t) := by
  obtain ⟨f, hf, rfl⟩ := timingState?_of_stepCycle hS h
  rw [stepCycle_of_timingState? (hrun.trans hS) (hcontrol.trans hf), hcomm f (mem_unfinishedStates hR hf hSC)]

/-- The indirect state is performed at T3 of a memory-reference instruction with I = 1 (R105, R107). -/
theorem stepCycle_indirectState {s : State} {i : Instr} (hS : s.S = true) (hR : s.R = false) (hSC : s.SC = 3)
    (hI : s.I = true) (hd : decode s.IR = .ok i) (hm : i.isMemoryReference = true) :
    stepCycle s = .next (indirectState s) := by
  refine stepCycle_of_timingState? hS ?_
  rw [timingState?_eq_head? (.inr (by simp [hSC])), pendingStates_ok hR hd, hSC]
  simp [statesAfterDecode, withIndirect, hm, hI]

/-- A phase of an instruction that R114 does not name keeps PC. -/
theorem phase_keeps_PC {i : Instr} {p : Nat} {f : State → State} (hf : (phasesOf i)[p]? = some f)
    (hi : leavesSequence i = false) (s : State) : (f s).PC = s.PC := by
  refine phases_induction (P := fun i _ f => leavesSequence i = false → (f s).PC = s.PC)
    ?memory ?register ?inputOutput hf hi
  case memory => intro ind a; and_intros <;> intro h <;> cases h <;> rfl
  case register => and_intros <;> intro h <;> cases h <;> rfl
  case inputOutput => and_intros <;> intro h <;> cases h <;> rfl

/-- An instruction begun in `s` stands at `u`, not yet in its last state: the request flags, R and ERR are as they were,
and the counters have gone up by the timing states and the reads so far (R58, R230). -/
structure Underway (cycles reads : Nat) (s u : State) : Prop where
  IEN : u.IEN = s.IEN
  FGI : u.FGI = s.FGI
  FGO : u.FGO = s.FGO
  R : u.R = s.R
  ERR : u.ERR = s.ERR
  profiler : u.profiler =
    ⟨s.profiler.cycles + cycles, s.profiler.instructions, s.profiler.reads + reads, s.profiler.writes⟩

theorem underway_latchFields (ind : Bool) (a : Addr) (s : State) : Underway 1 0 s (latchFields ind a s) :=
  ⟨rfl, rfl, rfl, rfl, rfl, rfl⟩

theorem underway_operandState (ind : Bool) (a : Addr) (s : State) :
    Underway (if ind then 2 else 1) (if ind then 1 else 0) s (operandState ind a s) := by
  cases ind <;> exact ⟨rfl, rfl, rfl, rfl, rfl, rfl⟩

theorem Underway.fetchOperand {c r : Nat} {s u : State} (h : Underway c r s u) :
    Underway (c + 1) (r + 1) s (fetchOperand u) :=
  ⟨h.IEN, h.FGI, h.FGO, h.R, h.ERR, by simp [Machine.fetchOperand, h.profiler, Nat.add_assoc]⟩

theorem Underway.iszIncrement {c r : Nat} {s u : State} (h : Underway c r s u) :
    Underway (c + 1) r s (iszIncrement u) :=
  ⟨h.IEN, h.FGI, h.FGO, h.R, h.ERR, by simp [Machine.iszIncrement, h.profiler, Nat.add_assoc]⟩

/-- `end_instruction` completes the instruction, on the request flags it began with (R112, R211); the last state has at
most its writes to count beside itself. -/
theorem Underway.completes {i : Instr} {c r w : Nat} {s u v : State} (h : Underway c r s u)
    (hexec : exec i s = .next (State.endInstruction u v)) (hR : v.R = u.R) (hERR : v.ERR = u.ERR)
    (hwrites : v.profiler = { u.profiler with writes := u.profiler.writes + w }) :
    ∃ t, exec i s = .next t ∧ t.SC = 0 ∧ requestRule s t ∧ t.ERR = s.ERR ∧
      t.profiler = ⟨s.profiler.cycles + (c + 1), s.profiler.instructions + 1, s.profiler.reads + r,
        s.profiler.writes + w⟩ := by
  obtain ⟨hSC, hrequest, -⟩ := endsInstruction_endInstruction h.IEN h.FGI h.FGO h.R (hR.trans h.R)
    (show v.profiler.instructions = s.profiler.instructions by simp [hwrites, h.profiler])
  exact ⟨_, hexec, hSC, hrequest, hERR.trans h.ERR, by simp [hwrites, h.profiler, Nat.add_assoc]⟩

/-- A step at an instruction boundary fetches the word at PC and runs it (R100, R234). -/
theorem step_readyToFetch {s : State} (h : readyToFetch s) : step s = runFetched (fetched s) := by
  obtain ⟨hS, hR, hSC⟩ := h
  rw [step_fetching hS hR (by simp [hSC]), hSC]
  rfl

/-- A halted engine emits no event (R101). -/
theorem cycleEvents_halted {s : State} (hS : s.S = false) : cycleEvents s = [] := by simp [cycleEvents, hS]

/-- A halted engine is left as it is by a run with any limit (R233). -/
theorem runLimited_halted {s : State} (hS : s.S = false) (limit : Nat) : runLimited limit s = .next s := by
  cases limit <;> simp [runLimited, hS]

/-- Where a halted engine stays as it is, the report is the current SC and two empty sets (D23). -/
theorem cycleReport_halted {s : State} (hS : s.S = false) : cycleReport s s = ⟨s.SC, [], [], none⟩ := by
  simp [cycleReport, cycleEvents_halted hS, atDecodeError, hS]

end Sys2Proof.Machine

namespace Sys2Proof.Proofs

open Sys2Proof.Machine Sys2Proof.Statements

/-- Settles O12: every instruction ends in `end_instruction`, and the states before it leave the request flags alone. -/
theorem everyInstructionCompletesWithItsCounts : Obligations.EveryInstructionCompletesWithItsCounts := by
  intro i s
  have atOperand (ind : Bool) (a : Addr) := underway_operandState ind a s
  have afterFetch (ind : Bool) (a : Addr) := (atOperand ind a).fetchOperand
  cases i with
  | and ind a => cases ind <;> exact (afterFetch _ a).completes (exec_and _ a s) rfl rfl rfl
  | add ind a => cases ind <;> exact (afterFetch _ a).completes (exec_add _ a s) rfl rfl rfl
  | lda ind a => cases ind <;> exact (afterFetch _ a).completes (exec_lda _ a s) rfl rfl rfl
  | sta ind a => cases ind <;> exact (atOperand _ a).completes (exec_sta _ a s) rfl rfl rfl
  | bun ind a => cases ind <;> exact (atOperand _ a).completes (exec_bun _ a s) rfl rfl rfl
  | bsa ind a => cases ind <;> exact (atOperand _ a).completes (exec_bsa _ a s) rfl rfl rfl
  | isz ind a => cases ind <;> exact (afterFetch _ a).iszIncrement.completes (exec_isz _ a s) rfl rfl rfl
  | cla | cle | cma | cme | cir | cil | inc | spa | sna | sza | sze | hlt | inp | out | ski | sko | ion | iof =>
    exact (underway_latchFields _ _ s).completes rfl rfl rfl rfl

/-- Settles O40: the six states that do not end an instruction read neither INPR nor FGI nor FGO. -/
theorem hostInputWaitsForBoundary : Obligations.HostInputWaitsForBoundary := by
  intro s t b hS hR h hSC
  have input := forall_mem_unfinishedStates (P := fun f => f (hostInput b s) = hostInput b (f s))
    rfl rfl rfl rfl rfl rfl
  have outputReady := forall_mem_unfinishedStates (P := fun f => f (hostOutputReady s) = hostOutputReady (f s))
    rfl rfl rfl rfl rfl rfl
  exact ⟨stepCycle_comm rfl rfl input hS hR h hSC, stepCycle_comm rfl rfl outputReady hS hR h hSC⟩

/-- Settles O60: T0 and T1 fetch from PC; of the other states only those of R114 write PC. -/
theorem controlLeavesSequenceOnlyThere : Obligations.ControlLeavesSequenceOnlyThere := by
  refine ⟨fun s ⟨hS, hR, hSC⟩ => ?fetch, fun s t h hPC => ?writers⟩
  case fetch =>
    exact ⟨t0 s, t1 (t0 s), stepCycle_t0 hS hR hSC, stepCycle_t1 (s := t0 s) hS hR rfl, rfl, BitVec.toNat_add s.PC 1⟩
  case writers =>
    rcases stepCycle_cases h with ⟨-, rfl⟩ | ⟨-, hR, -⟩ | ⟨-, hR, ht⟩
    · exact absurd rfl hPC
    · exact .inr (.inl hR)
    · rcases ht with ⟨-, rfl⟩ | ⟨hSC, rfl⟩ | ⟨-, rfl⟩ | ⟨-, -, rfl⟩ | ⟨-, -, -, rfl⟩ | ⟨i, p, f, hd, hSC, hf, rfl⟩
      · exact absurd rfl hPC
      · exact .inl ⟨hR, hSC, rfl⟩
      · exact absurd rfl hPC
      · exact absurd rfl hPC
      · exact absurd rfl hPC
      · have hleaves : leavesSequence i = true := by simpa using mt (phase_keeps_PC hf · s) hPC
        exact .inr (.inr ⟨i, hd, hSC ▸ three_le_phaseSC i s p, hleaves⟩)

/-- Settles O6: T0 and T1 leave the word at PC in IR, and `runFetched` is `exec` of what it decodes to. -/
theorem stepRunsDecodedInstruction : Obligations.StepRunsDecodedInstruction := by
  intro s i hready hd
  have hd : decode (fetched s).IR = .ok i := hd
  obtain ⟨t, ht, -⟩ := everyInstructionCompletesWithItsCounts i (fetched s)
  refine ⟨t, ht, ?_⟩
  have hrun : runFetched (fetched s) = .next (foldInterrupt t) := by simp only [runFetched, hd, ht]
  have hfold : foldInterrupt t = if t.S = true ∧ t.R = true then rt2 (rt1 (rt0 t)) else t := by
    simp only [foldInterrupt, Bool.and_eq_true]
    rfl
  rw [step_readyToFetch hready, hrun, hfold]

/-- Settles O9: each operation asks S first. -/
theorem haltedEngineStays : Obligations.HaltedEngineStays := by
  intro s limit hS
  refine ⟨step_halted hS, stepCycle_halted hS, cycleEvents_halted hS, ?report, ?run⟩
  case report => simp only [stepCycleReport, stepCycle_halted hS, cycleReport_halted hS]
  case run => simp [run, runLimited_halted hS, runReport, hS]

/-- Settles O10: the three fetch states by SC. -/
theorem fetchAndDecodeStates : Obligations.FetchAndDecodeStates :=
  fun s hS hR =>
    ⟨fun hSC => ⟨t0 s, stepCycle_t0 hS hR hSC, rfl, rfl, rfl, rfl, rfl⟩,
      fun hSC => ⟨t1 s, stepCycle_t1 hS hR hSC, rfl, rfl, rfl, rfl⟩,
      fun hSC => ⟨t2 s, stepCycle_t2 hS hR hSC, rfl, rfl, rfl, rfl, rfl, rfl, rfl⟩⟩

/-- Settles O11: the state performed there is the indirect state, which writes AR and SC. -/
theorem indirectStateLoadsPointer : Obligations.IndirectStateLoadsPointer := by
  intro s hS hR hSC hI hop
  obtain ⟨i, hd, hm⟩ := decode_memoryReference hop
  have hframe : keepsRegisters [.AR, .SC] s (indirectState s) := by
    intro r hr
    cases r with
    | AR | SC => simp at hr
    | _ => rfl
  exact ⟨indirectState s, stepCycle_indirectState hS hR hSC hI hd hm, rfl, rfl, hframe, fun _ => rfl, rfl, rfl⟩

end Sys2Proof.Proofs

/-! ### The memory-reference instructions (41_memory_reference.md)

Each phase stands at timing state T(3 + I + p) of the instruction whose word is in IR, and the whole instruction is its
phases from `operandState`, where AR holds the effective address (R74, R106, R130). -/

namespace Sys2Proof.Machine

open Sys2Proof.Statements
open Laws.EncodeFields (indirect field)

/-- The word built from three fields has those fields (R71). -/
theorem wordHas_instructionWord (ind : Bool) (op : BitVec 3) (a : Addr) : wordHas (instructionWord ind op a) ind op a :=
  ⟨indirectBit_instructionWord ind op a, opcodeField_instructionWord ind op a, addressField_instructionWord ind op a⟩

/-- In phase `p` of a memory-reference instruction the engine performs the entry `p` of its phases (R106). -/
theorem phaseDoes_of_phasesOf {i : Instr} {ind : Bool} {p : Nat} {f : State → State} {post : State → State → Prop}
    (hm : i.isMemoryReference = true) (hf : (phasesOf i)[p]? = some f) (hpost : ∀ s, post s (f s)) :
    phaseDoes i ind p post := by
  rintro s ⟨hS, hR, hIR, hI, hSC⟩
  have hd : decode s.IR = .ok i := by rw [hIR, decode_encode]
  have hphase : s.SC.toNat = phaseSC i s p := by simpa [phaseSC, hm, hI] using hSC
  exact ⟨f s, stepCycle_phase hS hR hd hphase hf, hpost s⟩

theorem loadsOperand_fetchOperand (s : State) : loadsOperand s (fetchOperand s) := ⟨rfl, rfl, rfl⟩

/-- Every instruction, from its T2 to its end, ends as `end_instruction` says (R112). -/
theorem endsInstruction_of_exec {i : Instr} {s t : State} (h : exec i s = .next t) : endsInstruction s t := by
  obtain ⟨u, hu, hSC, hrequest, -, hprofiler⟩ := Proofs.everyInstructionCompletesWithItsCounts i s
  cases h.symm.trans hu
  exact ⟨hSC, hrequest, by rw [hprofiler]⟩

/-- A timing state that ends with `end_instruction` on the state it began in (R112, D5). -/
theorem endsInstruction_self {s after : State} (hR : after.R = s.R)
    (hcount : after.profiler.instructions = s.profiler.instructions) :
    endsInstruction s (State.endInstruction s after) :=
  endsInstruction_endInstruction rfl rfl rfl rfl hR hcount

/-- Phase 0 of AND, ADD, LDA and ISZ loads the operand at the effective address into DR (R130). -/
@[simp] theorem operandState_word_effectiveAddress (ind : Bool) (a : Addr) (s : State) :
    (operandState ind a s).word (effectiveAddress ind a s) = operand ind a s :=
  State.word_congr (operandState_M ind a s) _

/-- The operand depends on the memory alone. -/
theorem operand_congr {s t : State} (h : t.M = s.M) (ind : Bool) (a : Addr) : operand ind a t = operand ind a s := by
  simp [operand, effectiveAddress, State.word, h]

/-- A skip taken adds 1 to PC modulo 4096 (R163). -/
theorem skipsWhen_of_PC {condition : Prop} {c : Bool} {s t : State} (hc : c = true ↔ condition)
    (hPC : t.PC = if c then s.PC + 1 else s.PC) : skipsWhen condition s t :=
  ⟨fun h => by simp [hPC, hc.2 h, BitVec.toNat_add], fun h => by simp [hPC, mt hc.1 h]⟩

theorem isZero_iff {w : Word} : isZero w = true ↔ w = 0 := beq_iff_eq

/-! ### The sum of ADD -/

theorem toNat_exactSum (x y : Word) : (exactSum x y).toNat = x.toNat + y.toNat := by
  simp only [exactSum, BitVec.toNat_add, BitVec.toNat_setWidth]
  omega

/-- AC gets the sum modulo 2^16 (R133). -/
theorem toNat_sumWord (x y : Word) : (sumWord x y).toNat = (x.toNat + y.toNat) % 2 ^ 16 := by
  rw [sumWord, BitVec.toNat_setWidth, toNat_exactSum]

/-- E gets the top bit of the 17-bit sum: whether the exact sum reaches 2^16 (R133). -/
theorem sumCarry_iff (x y : Word) : sumCarry x y = true ↔ 2 ^ 16 ≤ x.toNat + y.toNat := by
  have hmsb : sumCarry x y = (exactSum x y).msb := (BitVec.msb_eq_getLsbD_last _).symm
  rw [hmsb, BitVec.msb_eq_decide, toNat_exactSum, decide_eq_true_iff]

/-- `CMA; INC` leave the two's complement of AC, and memory as it was (R134, R152, R156). -/
theorem exec_cma_inc (s : State) :
    ∃ t u, exec .cma s = .next t ∧ exec .inc t = .next u ∧ u.AC = -s.AC ∧ u.M = s.M :=
  ⟨_, _, exec_cma s, exec_inc _, (BitVec.neg_eq_not_add s.AC).symm, rfl⟩

/-! ### What a memory-reference instruction leaves unchanged -/

theorem keepsRegisters_mono {written more : List RegName} {s t : State} (h : keepsRegisters written s t)
    (hsub : written ⊆ more) : keepsRegisters more s t :=
  fun r hr => h r fun hmem => hr (hsub hmem)

/-- The registers a memory-reference instruction may write: AR and I by T2 and the indirect state, SC and R by
`end_instruction`, and AC, DR, E and PC where R21, R23, R32 and R114 name it. -/
def memoryReferenceWrites (i : Instr) : List RegName :=
  [.AR, .I, .SC, .R] ++ (if writesAC i then [.AC] else []) ++ (if writesDR i then [.DR] else []) ++
    (if writesE i then [.E] else []) ++ (if leavesSequence i then [.PC] else [])

/-- T2 and the indirect state write AR, I and SC alone (R104, R107). -/
theorem keepsRegisters_operandState (i : Instr) (ind : Bool) (a : Addr) (s : State) :
    keepsRegisters (memoryReferenceWrites i) s (operandState ind a s) := by
  intro r hr
  cases r with
  | AR | I | SC => simp [memoryReferenceWrites] at hr
  | _ => simp [RegName.value]

/-- A phase of a memory-reference instruction writes none of the other registers. -/
theorem keepsRegisters_phase {i : Instr} {p : Nat} {f : State → State} (hm : i.isMemoryReference = true)
    (hf : (phasesOf i)[p]? = some f) (s : State) : keepsRegisters (memoryReferenceWrites i) s (f s) := by
  have hframe := phase_frame hf s
  obtain ⟨hAC, hDR, hE⟩ := phase_keeps_unwritten hf s
  have hne (j : Instr) (hj : j.isMemoryReference = false) : i ≠ j := by
    rintro rfl
    exact absurd (hm.symm.trans hj) nofun
  intro r hr
  cases r with
  | AR | I | SC | R => simp [memoryReferenceWrites] at hr
  | AC => exact hAC (by simpa [memoryReferenceWrites] using hr)
  | DR => exact hDR (by simpa [memoryReferenceWrites] using hr)
  | E => simp [RegName.value, hE (by simpa [memoryReferenceWrites] using hr)]
  | PC => simp [RegName.value, phase_keeps_PC hf (by simpa [memoryReferenceWrites] using hr) s]
  | IR => exact hframe.IR
  | TR => exact hframe.TR
  | OUTR => simp [RegName.value, hframe.OUTR, hne .out rfl]
  | INPR => simp [RegName.value, hframe.INPR]
  | S => simp [RegName.value, hframe.S, hne .hlt rfl]
  | IEN => simp [RegName.value, hframe.IEN, hne .ion rfl, hne .iof rfl]
  | FGI => simp [RegName.value, hframe.FGI, hne .inp rfl]
  | FGO => simp [RegName.value, hframe.FGO, hne .out rfl]

/-- A memory-reference instruction is its phases performed from `operandState` (R106). -/
theorem exec_memoryReference {i : Instr} (hm : i.isMemoryReference = true) (s : State) :
    exec i s = .next (performAll (phasesOf i) (operandState (indirect i) (field i) s)) := by
  rw [exec_eq, hm, Bool.true_and]
  cases indirect i <;> rfl

/-- What each timing state of a list keeps is kept by their performance. -/
theorem performAll_keeps {α : Type} {view : State → α} {states : List (State → State)}
    (h : ∀ f ∈ states, ∀ s, view (f s) = view s) (s : State) : view (performAll states s) = view s := by
  induction states generalizing s with
  | nil => rfl
  | cons f rest ih =>
    have hrest := ih (fun g hg => h g (List.mem_cons_of_mem f hg)) (f s)
    exact hrest.trans (h f List.mem_cons_self s)

/-- What each phase of a memory-reference instruction keeps, the instruction keeps from `operandState` on. -/
theorem exec_keeps {α : Type} {view : State → α} {i : Instr} {s t : State} (hm : i.isMemoryReference = true)
    (hphases : ∀ (p : Nat) (f : State → State), (phasesOf i)[p]? = some f → ∀ u, view (f u) = view u)
    (h : exec i s = .next t) : view t = view (operandState (indirect i) (field i) s) := by
  cases h.symm.trans (exec_memoryReference hm s)
  refine performAll_keeps (fun f hf => ?_) _
  obtain ⟨p, hp⟩ := List.mem_iff_getElem?.1 hf
  exact hphases p f hp

/-- What a whole memory-reference instruction leaves in the registers (R130, D8). -/
theorem memoryReference_frame {i : Instr} {s t : State} (hm : i.isMemoryReference = true) (h : exec i s = .next t) :
    keepsRegisters (memoryReferenceWrites i) s t ∧ t.ERR = s.ERR ∧ t.I = indirect i := by
  refine ⟨fun r hr => ?registers, ?error, ?latched⟩
  case registers =>
    have hkept := exec_keeps (view := r.value) hm (fun p f hf u => keepsRegisters_phase hm hf u r hr) h
    exact hkept.trans (keepsRegisters_operandState i _ _ s r hr)
  case error => simpa using exec_keeps (view := State.ERR) hm (fun p f hf u => (phase_frame hf u).ERR) h
  case latched => simpa using exec_keeps (view := State.I) hm (fun p f hf u => (phase_frame hf u).I) h

/-- The frame of a memory-reference instruction (R130): it writes at most the registers `written`, and memory stays as
`keeps` says. -/
theorem exists_memoryReference_frame {i : Instr} {s t : State} {written : List RegName} {keeps : State → State → Prop}
    (h : exec i s = .next t) (hm : i.isMemoryReference = true) (hwritten : memoryReferenceWrites i ⊆ written)
    (hmemory : keeps s t) :
    ∃ t, exec i s = .next t ∧ keepsRegisters written s t ∧ keeps s t ∧ t.ERR = s.ERR ∧ t.I = indirect i := by
  obtain ⟨hregisters, hERR, hI⟩ := memoryReference_frame hm h
  exact ⟨t, h, keepsRegisters_mono hregisters hwritten, hmemory, hERR, hI⟩

theorem keepsMemory_of_eq {s t : State} (h : t.M = s.M) : keepsMemory s t := fun b => by rw [h]

/-- Setting one word of memory keeps every other one. -/
theorem keepsMemoryBut_of_set {s t : State} {a : Addr} {v : Word} (h : t.M = s.M.set a.toNat v) :
    keepsMemoryBut a s t := by
  intro b hb
  rw [h, Memory.read_set_other s.M v hb]

end Sys2Proof.Machine

namespace Sys2Proof.Proofs

open Sys2Proof.Machine Sys2Proof.Statements

/-- Settles O13: AC and DR meet in phase 1, after phase 0 loaded the operand. -/
theorem andMasksAccumulator : Obligations.AndMasksAccumulator := by
  intro ind a
  refine ⟨wordHas_instructionWord ind _ a, phaseDoes_of_phasesOf rfl rfl loadsOperand_fetchOperand,
    phaseDoes_of_phasesOf rfl rfl fun s => ⟨rfl, rfl, endsInstruction_self rfl rfl⟩,
    fun s => ⟨_, exec_and ind a s, ?effect⟩⟩
  case effect =>
    refine ⟨?_, ?_, ?_, ?_, ?_, endsInstruction_of_exec (exec_and ind a s)⟩ <;> simp [andFinish]

/-- Settles O14: AC and E are the low 16 bits and the top bit of the exact sum. -/
theorem addSumsAndCarries : Obligations.AddSumsAndCarries := by
  intro ind a
  refine ⟨wordHas_instructionWord ind _ a, phaseDoes_of_phasesOf rfl rfl loadsOperand_fetchOperand,
    phaseDoes_of_phasesOf rfl rfl fun s => ⟨toNat_sumWord _ _, sumCarry_iff _ _, endsInstruction_self rfl rfl⟩,
    fun s => ⟨_, exec_add ind a s, ?effect⟩⟩
  case effect =>
    refine ⟨?_, ?_, ?_, ?_, ?_, endsInstruction_of_exec (exec_add ind a s)⟩ <;>
      simp [addFinish, toNat_sumWord, sumCarry_iff]

/-- Settles O15: phase 1 copies the operand from DR. -/
theorem ldaLoadsAccumulator : Obligations.LdaLoadsAccumulator := by
  intro ind a
  refine ⟨wordHas_instructionWord ind _ a, phaseDoes_of_phasesOf rfl rfl loadsOperand_fetchOperand,
    phaseDoes_of_phasesOf rfl rfl fun s => ⟨rfl, rfl, endsInstruction_self rfl rfl⟩,
    fun s => ⟨_, exec_lda ind a s, ?effect⟩⟩
  case effect =>
    refine ⟨?_, ?_, ?_, ?_, ?_, endsInstruction_of_exec (exec_lda ind a s)⟩ <;> simp [ldaFinish]

/-- Settles O16: a canonical memory reads back the word set. -/
theorem staStoresAccumulator : Obligations.StaStoresAccumulator := by
  intro ind a
  refine ⟨wordHas_instructionWord ind _ a,
    phaseDoes_of_phasesOf rfl rfl fun s => ⟨(Memory.read_set_same · _ _), rfl, endsInstruction_self rfl rfl⟩,
    fun s hwf => ⟨_, exec_sta ind a s, ?effect⟩⟩
  case effect =>
    refine ⟨?_, ?_, ?_, ?_, ?_, endsInstruction_of_exec (exec_sta ind a s)⟩ <;>
      simp [staStore, Memory.read_set_same hwf]

/-- Settles O17: AR holds the effective address in phase 0. -/
theorem bunBranches : Obligations.BunBranches := by
  intro ind a
  refine ⟨wordHas_instructionWord ind _ a,
    phaseDoes_of_phasesOf rfl rfl fun s => ⟨rfl, rfl, endsInstruction_self rfl rfl⟩,
    fun s => ⟨_, exec_bun ind a s, ?effect⟩⟩
  case effect => refine ⟨?_, ?_, ?_, endsInstruction_of_exec (exec_bun ind a s)⟩ <;> simp [bunBranch]

/-- Settles O18: the one phase stores PC at AR and then continues after it. -/
theorem bsaSavesAndBranches : Obligations.BsaSavesAndBranches := by
  intro ind a
  refine ⟨wordHas_instructionWord ind _ a,
    phaseDoes_of_phasesOf rfl rfl fun s => ⟨rfl, rfl, (Memory.read_set_same · _ _), rfl, endsInstruction_self rfl rfl⟩,
    fun s hwf => ⟨_, exec_bsa ind a s, ?effect⟩⟩
  case effect =>
    refine ⟨?_, ?_, ?_, endsInstruction_of_exec (exec_bsa ind a s)⟩ <;>
      simp [bsaSave, Memory.read_set_same hwf, BitVec.toNat_add]

/-- Settles O19: the word stored is DR, the operand plus 1, and the skip tests the same DR. -/
theorem iszIncrementsAndSkips : Obligations.IszIncrementsAndSkips := by
  intro ind a
  refine ⟨wordHas_instructionWord ind _ a, phaseDoes_of_phasesOf rfl rfl loadsOperand_fetchOperand,
    phaseDoes_of_phasesOf rfl rfl fun s => ⟨rfl, rfl⟩,
    phaseDoes_of_phasesOf rfl rfl fun s => ⟨(Memory.read_set_same · _ _), skipsWhen_of_PC isZero_iff rfl, rfl, rfl,
      endsInstruction_self rfl rfl⟩,
    fun s hwf => ⟨_, exec_isz ind a s, ?effect⟩⟩
  case effect =>
    have hstored : (iszStore (iszIncrement (fetchOperand (operandState ind a s)))).M.read (ea ind a s).toNat =
        operand ind a s + 1 := by rw [iszStore_M, Memory.read_set_same hwf]
    rw [hstored]
    refine ⟨BitVec.toNat_add _ _, ?_, skipsWhen_of_PC isZero_iff ?_, ?_, ?_,
      endsInstruction_of_exec (exec_isz ind a s)⟩ <;> simp [iszStore, iszIncrement]

/-- Settles O20: the frame of a memory-reference instruction, of which these four set no word of memory. -/
theorem nonStoringMemoryReferenceFrame : Obligations.NonStoringMemoryReferenceFrame := by
  intro ind a s
  refine ⟨exists_memoryReference_frame (exec_and ind a s) rfl (of_decide_eq_true rfl) (keepsMemory_of_eq ?and),
    exists_memoryReference_frame (exec_add ind a s) rfl (of_decide_eq_true rfl) (keepsMemory_of_eq ?add),
    exists_memoryReference_frame (exec_lda ind a s) rfl (of_decide_eq_true rfl) (keepsMemory_of_eq ?lda),
    exists_memoryReference_frame (exec_bun ind a s) rfl (of_decide_eq_true rfl) (keepsMemory_of_eq ?bun)⟩
  case and => simp [andFinish]
  case add => simp [addFinish]
  case lda => simp [ldaFinish]
  case bun => simp [bunBranch]

/-- Settles O21: the same frame, and each of the three sets the word at AR alone. -/
theorem storingMemoryReferenceFrame : Obligations.StoringMemoryReferenceFrame := by
  intro ind a s
  refine ⟨exists_memoryReference_frame (exec_sta ind a s) rfl (of_decide_eq_true rfl) ?sta,
    exists_memoryReference_frame (exec_bsa ind a s) rfl (of_decide_eq_true rfl) ?bsa,
    exists_memoryReference_frame (exec_isz ind a s) rfl (of_decide_eq_true rfl) ?isz⟩
  case sta => exact keepsMemoryBut_of_set (v := s.AC) (by simp [staStore])
  case bsa => exact keepsMemoryBut_of_set (v := s.PC.setWidth 16) (by simp [bsaSave])
  case isz => exact keepsMemoryBut_of_set (iszStore_M ind a s)

/-- Settles O22: the pointer word of the BUN is the return address that BSA stored there. -/
theorem subroutineCallReturns : Obligations.SubroutineCallReturns := by
  intro ind a s hwf
  obtain ⟨-, -, hcall⟩ := bsaSavesAndBranches ind a
  obtain ⟨-, -, hreturn⟩ := bunBranches true (ea ind a s)
  obtain ⟨t, ht, hsaved, -⟩ := hcall s hwf
  obtain ⟨u, hu, hPC, -⟩ := hreturn t
  refine ⟨t, u, ht, hu, ?_⟩
  calc u.PC = addressField (t.M.read (ea ind a s).toNat) := hPC
    _ = s.PC := by rw [hsaved, addressField_setWidth]

/-- Settles O23: `CMA; INC` leave the two's complement of AC, and ADD adds the operand to it. -/
theorem complementIncrementAddSubtracts : Obligations.ComplementIncrementAddSubtracts := by
  intro ind a s
  obtain ⟨t, u, ht, hu, hnegated, hM⟩ := exec_cma_inc s
  obtain ⟨-, -, -, hadd⟩ := addSumsAndCarries ind a
  obtain ⟨v, hv, hAC, hE, -⟩ := hadd u
  rw [hnegated, operand_congr hM, BitVec.toNat_neg] at hAC hE
  refine ⟨t, u, v, ht, hu, hv, ?difference, ?carry⟩
  case difference =>
    apply BitVec.eq_of_toNat_eq
    rw [hAC, BitVec.toNat_sub]
    omega
  case carry =>
    have hzero : s.AC ≠ 0 ↔ s.AC.toNat ≠ 0 := by simp [← BitVec.toNat_inj]
    rw [hE, hzero]
    omega

end Sys2Proof.Proofs

/-! ### The register-reference instructions (42_register_reference.md)

Each is T2 and one state T3, so what it leaves unchanged is what its phase leaves. CIR and CIL turn the ring of the 17 bits
of E and AC by one place, in opposite directions; a number of circulations is then a rotation of the ring by that number. -/

namespace Sys2Proof.Machine

open Sys2Proof.Statements
open Laws.EncodeFields (indirect field)

/-! #### What a one-state instruction leaves unchanged -/

/-- The registers an instruction may write: beside those of `memoryReferenceWrites`, S by HLT (R161) and the input/output
registers and flags by INP, OUT, ION and IOF (R170, R171, R174, R175). -/
def instructionWrites (i : Instr) : List RegName :=
  memoryReferenceWrites i ++ (if i = .hlt then [.S] else []) ++ (if i = .inp then [.FGI] else []) ++
    (if i = .out then [.OUTR, .FGO] else []) ++ (if i = .ion ∨ i = .iof then [.IEN] else [])

theorem keepsRegisters_trans {written : List RegName} {s t u : State} (hst : keepsRegisters written s t)
    (htu : keepsRegisters written t u) : keepsRegisters written s u :=
  fun r hr => (htu r hr).trans (hst r hr)

/-- T2 writes AR, I and SC alone (R104). -/
theorem keepsRegisters_latchFields (ind : Bool) (a : Addr) (s : State) :
    keepsRegisters [.AR, .I, .SC] s (latchFields ind a s) := by
  intro r hr
  cases r with
  | AR | I | SC => simp at hr
  | _ => rfl

/-- A phase of any instruction writes none of the other registers. -/
theorem keepsRegisters_anyPhase {i : Instr} {p : Nat} {f : State → State} (hf : (phasesOf i)[p]? = some f) (s : State) :
    keepsRegisters (instructionWrites i) s (f s) := by
  have hframe := phase_frame hf s
  obtain ⟨hAC, hDR, hE⟩ := phase_keeps_unwritten hf s
  intro r hr
  simp only [instructionWrites, memoryReferenceWrites, List.mem_append, not_or] at hr
  cases r with
  | AR | I | SC | R => simp at hr
  | IR => exact hframe.IR
  | TR => exact hframe.TR
  | INPR => simp [RegName.value, hframe.INPR]
  | AC => exact hAC (by simpa using hr)
  | DR => exact hDR (by simpa using hr)
  | E => simp [RegName.value, hE (by simpa using hr)]
  | PC =>
    have hi : leavesSequence i = false := by simpa using hr
    simp [RegName.value, phase_keeps_PC hf hi s]
  | S =>
    have hi : i ≠ .hlt := by simpa using hr
    simp [RegName.value, hframe.S, hi]
  | FGI =>
    have hi : i ≠ .inp := by simpa using hr
    simp [RegName.value, hframe.FGI, hi]
  | OUTR =>
    have hi : i ≠ .out := by simpa using hr
    simp [RegName.value, hframe.OUTR, hi]
  | FGO =>
    have hi : i ≠ .out := by simpa using hr
    simp [RegName.value, hframe.FGO, hi]
  | IEN =>
    have hi : i ≠ .ion ∧ i ≠ .iof := by simpa using hr
    simp [RegName.value, hframe.IEN, hi]

/-- The phase of an instruction that is no memory-reference instruction leaves memory as it is (R58). -/
theorem phase_keeps_M {i : Instr} {p : Nat} {f : State → State} (hf : (phasesOf i)[p]? = some f)
    (hm : i.isMemoryReference = false) (s : State) : (f s).M = s.M := by
  refine phases_induction (P := fun i _ f => i.isMemoryReference = false → (f s).M = s.M)
    ?memory ?register ?inputOutput hf hm
  case memory => intro ind a; and_intros <;> exact nofun
  case register => and_intros <;> exact fun _ => rfl
  case inputOutput => and_intros <;> exact fun _ => rfl

/-- A register-reference or input/output instruction is its one phase after T2 (R104, R109). -/
theorem exec_oneState {i : Instr} (hm : i.isMemoryReference = false) (s : State) :
    ∃ f, (phasesOf i)[0]? = some f ∧ exec i s = .next (f (latchFields (indirect i) (field i) s)) := by
  cases i with
  | and | add | lda | sta | bun | bsa | isz => cases hm
  | _ => exact ⟨_, rfl, rfl⟩

/-- The frame of a one-state instruction (D8): it writes at most the registers of `instructionWrites`, and no memory. -/
theorem oneState_frame {i : Instr} (hm : i.isMemoryReference = false) (s : State) :
    ∃ t, exec i s = .next t ∧ keepsRegisters (instructionWrites i) s t ∧ keepsMemory s t ∧ t.ERR = s.ERR ∧
      t.I = indirect i := by
  obtain ⟨f, hf, hexec⟩ := exec_oneState hm s
  have hframe := phase_frame hf (latchFields (indirect i) (field i) s)
  have hT2 : keepsRegisters (instructionWrites i) s (latchFields (indirect i) (field i) s) :=
    keepsRegisters_mono (keepsRegisters_latchFields _ _ s) (by simp [instructionWrites, memoryReferenceWrites])
  exact ⟨_, hexec, keepsRegisters_trans hT2 (keepsRegisters_anyPhase hf _), keepsMemory_of_eq (phase_keeps_M hf hm _),
    hframe.ERR, hframe.I⟩

/-- The frame of a group of register-reference instructions that write at most the registers `written`. -/
theorem registerReference_frame {group : List Instr} {written : List RegName} (s : State)
    (hgroup : ∀ i ∈ group, i.isMemoryReference = false ∧ indirect i = false ∧ instructionWrites i ⊆ written) :
    ∀ i ∈ group, ∃ t, exec i s = .next t ∧ keepsRegisters written s t ∧ keepsMemory s t ∧ t.ERR = s.ERR ∧
      t.I = false := by
  intro i hi
  obtain ⟨hm, hind, hwritten⟩ := hgroup i hi
  obtain ⟨t, ht, hregisters, hmemory, hERR, hI⟩ := oneState_frame hm s
  exact ⟨t, ht, keepsRegisters_mono hregisters hwritten, hmemory, hERR, hI.trans hind⟩

/-! #### The bits CIR and CIL move -/

theorem getLsbD_circulateRight {k : Nat} (hk : k < 15) (e : Bool) (ac : Word) :
    (circulateRight e ac).getLsbD k = ac.getLsbD (k + 1) := by
  simp [circulateRight, BitVec.getLsbD_cons, hk, hk.ne, Nat.add_comm]

theorem getLsbD_circulateRight_last (e : Bool) (ac : Word) : (circulateRight e ac).getLsbD 15 = e := by
  rw [circulateRight, BitVec.getLsbD_cons, if_pos rfl]

theorem getLsbD_circulateLeft {k : Nat} (hk : k < 15) (e : Bool) (ac : Word) :
    (circulateLeft e ac).getLsbD (k + 1) = ac.getLsbD k := by
  simp [circulateLeft, hk]

theorem getLsbD_circulateLeft_zero (e : Bool) (ac : Word) : (circulateLeft e ac).getLsbD 0 = e := by
  simp [circulateLeft]

/-! #### The ring of E and AC -/

/-- The 17-bit ring of E and AC (R154, R155): place 16 is E, place `k` below it is `AC[k]`. -/
def ringBit (s : State) (k : ZMod 17) : Bool := if k.val = 16 then s.E else s.AC.getLsbD k.val

theorem ringBit_AC {k : Nat} (hk : k < 16) (s : State) : ringBit s k = s.AC.getLsbD k := by
  rw [ringBit, ZMod.val_cast_of_lt (by omega), if_neg hk.ne]

/-- What holds of place 16 and of the places below it holds of every place. -/
theorem forall_place {P : ZMod 17 → Prop} (hE : P 16) (hAC : ∀ k : Nat, k < 16 → P k) (k : ZMod 17) : P k := by
  rw [← ZMod.natCast_zmod_val k]
  rcases Nat.lt_succ_iff_lt_or_eq.1 (ZMod.val_lt k) with hk | hk
  · exact hAC _ hk
  · rw [hk]
    exact hE

/-- The ring determines AC and E. -/
theorem ringBit_eq_iff {s t : State} : ringBit t = ringBit s ↔ t.AC = s.AC ∧ t.E = s.E := by
  refine ⟨fun h => ⟨BitVec.eq_of_getLsbD_eq fun k hk => ?bit, congrFun h 16⟩, fun ⟨hAC, hE⟩ => ?places⟩
  case bit => rw [← ringBit_AC hk, ← ringBit_AC hk, h]
  case places => funext k; rw [ringBit, ringBit, hAC, hE]

/-- All 17 places hold the bit `b` exactly when AC and E are made of it. -/
theorem forall_ringBit_eq_iff {s : State} {b : Bool} : (∀ k, ringBit s k = b) ↔ s.AC = BitVec.fill 16 b ∧ s.E = b := by
  refine ⟨fun h => ⟨BitVec.eq_of_getLsbD_eq fun k hk => ?bit, h 16⟩, fun ⟨hAC, hE⟩ => forall_place hE fun k hk => ?place⟩
  case bit => rw [← ringBit_AC hk, h, BitVec.getLsbD_fill]; simp [hk]
  case place => rw [ringBit_AC hk, hAC, BitVec.getLsbD_fill]; simp [hk]

/-! #### Turning the ring -/

/-- From `s` to `t` the ring turns by `c` places: place `k` gets the bit of place `k + c`. -/
def Rotates (c : ZMod 17) (s t : State) : Prop := ∀ k, ringBit t k = ringBit s (k + c)

theorem Rotates.trans {c d : ZMod 17} {s t u : State} (hst : Rotates c s t) (htu : Rotates d t u) :
    Rotates (c + d) s u := by
  intro k
  rw [htu, hst, add_assoc, add_comm d c]

theorem Rotates.symm {c : ZMod 17} {s t : State} (h : Rotates c s t) : Rotates (-c) t s := by
  intro k
  rw [h, neg_add_cancel_right]

/-- A turn by 0 places modulo 17 keeps AC and E. -/
theorem Rotates.registers_eq {c : ZMod 17} {s t : State} (h : Rotates c s t) (hc : c = 0) : t.AC = s.AC ∧ t.E = s.E :=
  ringBit_eq_iff.1 (funext fun k => by rw [h, hc, add_zero])

/-- The transfers of CIR (R154), bit by bit, are the turn by one place. -/
theorem rotates_one {s t : State} (hE : t.E = s.AC.getLsbD 0) (hlast : t.AC.getLsbD 15 = s.E)
    (hAC : ∀ k, k < 15 → t.AC.getLsbD k = s.AC.getLsbD (k + 1)) : Rotates 1 s t := by
  refine forall_place hE fun k hk => ?_
  rw [ringBit_AC hk, ← Nat.cast_succ]
  rcases Nat.lt_succ_iff_lt_or_eq.1 hk with hlt | rfl
  · rw [hAC k hlt, ringBit_AC (by omega)]
  · exact hlast

/-- CIR turns the ring by one place (R154). -/
theorem rotates_cir {s t : State} (h : exec .cir s = .next t) : Rotates 1 s t := by
  cases h.symm.trans (exec_cir s)
  exact rotates_one rfl (getLsbD_circulateRight_last _ _) fun _ hk => getLsbD_circulateRight hk _ _

/-- CIL turns the ring by one place the other way (R155): from its end to its start its transfers are those of CIR. -/
theorem rotates_cil {s t : State} (h : exec .cil s = .next t) : Rotates (-1) s t := by
  cases h.symm.trans (exec_cil s)
  exact (rotates_one (getLsbD_circulateLeft_zero _ _).symm rfl fun _ hk => (getLsbD_circulateLeft hk _ _).symm).symm

theorem exists_exec (i : Instr) (s : State) : ∃ t, exec i s = .next t := ⟨_, exec_eq i s⟩

/-- After a turn by `c`, an instruction that turns the ring by `d`, opposite to `c`, returns AC and E to their values. -/
theorem Rotates.undone {i : Instr} {c d : ZMod 17} {s t : State} (h : Rotates c s t)
    (hi : ∀ {s t}, exec i s = .next t → Rotates d s t) (hcd : c + d = 0) :
    ∃ u, exec i t = .next u ∧ u.AC = s.AC ∧ u.E = s.E := by
  obtain ⟨u, hu⟩ := exists_exec i t
  exact ⟨u, hu, (h.trans (hi hu)).registers_eq hcd⟩

/-- `n` executions of an instruction that turns the ring by `c` places turn it by `n * c`. -/
theorem execTimes_rotates {i : Instr} {c : ZMod 17} (hi : ∀ {s t}, exec i s = .next t → Rotates c s t) (n : Nat)
    (s : State) : ∃ t, execTimes i n s = .next t ∧ Rotates (n * c) s t := by
  induction n generalizing s with
  | zero => exact ⟨s, rfl, fun k => by simp⟩
  | succ n ih =>
    obtain ⟨t, ht⟩ := exists_exec i s
    obtain ⟨u, hu, htu⟩ := ih t
    have hsum : c + n * c = (n + 1 : Nat) * c := by rw [Nat.cast_succ, add_one_mul, add_comm]
    exact ⟨u, by simp only [execTimes, ht, hu], hsum ▸ (hi ht).trans htu⟩

/-- A turn whose multiples reach every place keeps the ring exactly where all 17 bits are equal. -/
theorem Rotates.ringBit_eq_iff {c d : ZMod 17} {s t : State} (h : Rotates c s t) (hd : d * c = 1) :
    ringBit t = ringBit s ↔ ∀ k, ringBit s k = ringBit s 0 := by
  refine ⟨fun heq k => ?_, fun hconst => funext fun k => by rw [h, hconst, hconst k]⟩
  have hperiod : Function.Periodic (ringBit s) c := fun k => by rw [← h, heq]
  have hk : k = ((k * d).val : ZMod 17) * c := by rw [ZMod.natCast_zmod_val, mul_assoc, hd, mul_one]
  rw [hk, hperiod.nat_mul_eq]

/-- All 17 bits are equal on the two uniform rings (R162). -/
theorem forall_ringBit_eq_zero_iff {s : State} :
    (∀ k, ringBit s k = ringBit s 0) ↔ (s.AC = 0x0000 ∧ s.E = false) ∨ (s.AC = 0xFFFF ∧ s.E = true) := by
  have hfalse : (∀ k, ringBit s k = false) ↔ s.AC = 0x0000 ∧ s.E = false := forall_ringBit_eq_iff
  have htrue : (∀ k, ringBit s k = true) ↔ s.AC = 0xFFFF ∧ s.E = true := forall_ringBit_eq_iff
  rw [← hfalse, ← htrue]
  refine ⟨fun h => ?_, by rintro (h | h) k <;> rw [h, h]⟩
  cases h0 : ringBit s 0 with
  | false => exact .inl fun k => (h k).trans h0
  | true => exact .inr fun k => (h k).trans h0

/-- A turn whose multiples reach every place keeps AC and E exactly on the two uniform rings (R162). -/
theorem Rotates.registers_eq_iff {c d : ZMod 17} {s t : State} (h : Rotates c s t) (hd : d * c = 1) :
    (t.AC = s.AC ∧ t.E = s.E) ↔ (s.AC = 0x0000 ∧ s.E = false) ∨ (s.AC = 0xFFFF ∧ s.E = true) := by
  rw [← Machine.ringBit_eq_iff, h.ringBit_eq_iff hd, forall_ringBit_eq_zero_iff]

end Sys2Proof.Machine

namespace Sys2Proof.Proofs

open Sys2Proof.Machine Sys2Proof.Statements

/-- Settles O24: each T3 writes the one register its rule names. -/
theorem accumulatorAndExtendOperations : Obligations.AccumulatorAndExtendOperations := by
  intro s
  refine ⟨⟨_, exec_cla s, rfl, rfl, endsInstruction_of_exec (exec_cla s)⟩,
    ⟨_, exec_cma s, fun k hk => ?complement, rfl, endsInstruction_of_exec (exec_cma s)⟩,
    ⟨_, exec_inc s, BitVec.toNat_add s.AC 1, rfl, endsInstruction_of_exec (exec_inc s)⟩,
    ⟨_, exec_cle s, rfl, rfl, endsInstruction_of_exec (exec_cle s)⟩,
    ⟨_, exec_cme s, ?flip, rfl, endsInstruction_of_exec (exec_cme s)⟩⟩
  case complement => simp [cmaT3, hk]
  case flip => simp [cmeT3]

/-- Settles O25: the bits of the two transfers; the turns by 1 and by -1 undo each other. -/
theorem circulateMovesEveryBit : Obligations.CirculateMovesEveryBit := by
  refine fun s => ⟨⟨_, exec_cir s, ?right⟩, ⟨_, exec_cil s, ?left⟩⟩
  case right =>
    exact ⟨rfl, getLsbD_circulateRight_last _ _, fun _ hk => getLsbD_circulateRight hk _ _,
      endsInstruction_of_exec (exec_cir s), (rotates_cir (exec_cir s)).undone rotates_cil (by decide)⟩
  case left =>
    exact ⟨rfl, getLsbD_circulateLeft_zero _ _, fun _ hk => getLsbD_circulateLeft hk _ _,
      endsInstruction_of_exec (exec_cil s), (rotates_cil (exec_cil s)).undone rotates_cir (by decide)⟩

/-- Settles O26: 17 places are a turn by 0, and 16 are a turn by a single place the other way. -/
theorem seventeenRotationsAreIdentity : Obligations.SeventeenRotationsAreIdentity := by
  intro s
  obtain ⟨t, ht, hright⟩ := execTimes_rotates rotates_cir 17 s
  obtain ⟨u, hu, hleft⟩ := execTimes_rotates rotates_cil 17 s
  obtain ⟨v, hv, hright16⟩ := execTimes_rotates rotates_cir 16 s
  obtain ⟨w, hw, hleft16⟩ := execTimes_rotates rotates_cil 16 s
  exact ⟨⟨t, ht, hright.registers_eq (by decide)⟩, ⟨u, hu, hleft.registers_eq (by decide)⟩,
    ⟨v, hv, hright16.registers_eq_iff (d := -1) (by decide)⟩, ⟨w, hw, hleft16.registers_eq_iff (d := 1) (by decide)⟩⟩

/-- Settles O28: HLT clears S in its last state, and a halted engine stays as it is. -/
theorem hltStopsTheEngine : Obligations.HltStopsTheEngine :=
  fun s => ⟨_, exec_hlt s, rfl, rfl, endsInstruction_of_exec (exec_hlt s), step_halted rfl, stepCycle_halted rfl⟩

/-- Settles O29: the frame of a one-state instruction, of which these write the registers their rules name. -/
theorem registerReferenceFrame : Obligations.RegisterReferenceFrame :=
  fun s => ⟨registerReference_frame s (by decide), registerReference_frame s (by decide),
    registerReference_frame s (by decide), registerReference_frame s (by decide),
    registerReference_frame (group := [.hlt]) s (by decide) .hlt (by decide)⟩

end Sys2Proof.Proofs

/-! ### The input/output instructions (43_input_output.md)

Each is T2 and one state T3. Its request test reads the flags as T3 began, so that T3's own writes of FGI, FGO and IEN come
too late for it (R112, D5). -/

namespace Sys2Proof.Machine

open Sys2Proof.Statements
open Laws.EncodeFields (indirect)

/-! #### The two sides of the request rule (R211) -/

/-- With interrupts disabled as its last state begins, an instruction leaves R as it was. -/
theorem R_of_interrupts_disabled {s t : State} (h : endsInstruction s t) (hIEN : s.IEN = false) : t.R = s.R := by
  obtain ⟨-, hrequest, -⟩ := h
  simpa [requestRule, hIEN] using hrequest

/-- With interrupts enabled and a flag up as its last state begins, R is 1 after the instruction: newly, or still. -/
theorem R_of_pending_request {s t : State} (h : endsInstruction s t) (hIEN : s.IEN = true)
    (hflag : s.FGI = true ∨ s.FGO = true) : t.R = true := by
  obtain ⟨-, hrequest, -⟩ := h
  unfold requestRule at hrequest
  cases hR : s.R with
  | false => rw [hrequest, if_pos ⟨hIEN, hflag, hR⟩]
  | true => rw [hrequest, hR, ite_self]

/-! #### What an input/output instruction leaves unchanged -/

/-- The frame of an input/output instruction that writes at most the registers `written` (D8). -/
theorem inputOutput_frame {i : Instr} {written : List RegName} (s : State) (hm : i.isMemoryReference = false)
    (hind : indirect i = true) (hwritten : instructionWrites i ⊆ written) :
    ∃ t, exec i s = .next t ∧ keepsRegisters written s t ∧ keepsMemory s t ∧ t.ERR = s.ERR ∧ t.I = true := by
  obtain ⟨t, ht, hregisters, hmemory, hERR, hI⟩ := oneState_frame hm s
  exact ⟨t, ht, keepsRegisters_mono hregisters hwritten, hmemory, hERR, hI.trans hind⟩

end Sys2Proof.Machine

namespace Sys2Proof.Proofs

open Sys2Proof.Machine Sys2Proof.Statements

/-- Settles O30: AC becomes its own high half with INPR below it. -/
theorem inpTakesCharacter : Obligations.InpTakesCharacter :=
  fun s => ⟨_, exec_inp s, BitVec.extractLsb'_append_eq_right, BitVec.extractLsb'_append_eq_left, rfl, rfl,
    endsInstruction_of_exec (exec_inp s)⟩

/-- Settles O31: the low 8 bits of AC are its value modulo 256. -/
theorem outGivesCharacter : Obligations.OutGivesCharacter :=
  fun s => ⟨_, exec_out s, BitVec.extractLsb'_toNat 0 8 s.AC, rfl, rfl, endsInstruction_of_exec (exec_out s)⟩

/-- Settles O32: the new IEN is written beside the request test, which decides R by the old one. -/
theorem ionIofSwitchInterrupts : Obligations.IonIofSwitchInterrupts := by
  intro s
  have hion := endsInstruction_of_exec (exec_ion s)
  have hiof := endsInstruction_of_exec (exec_iof s)
  exact ⟨⟨_, exec_ion s, rfl, hion, fun hIEN hR => (R_of_interrupts_disabled hion hIEN).trans hR⟩,
    ⟨_, exec_iof s, rfl, hiof, R_of_pending_request hiof⟩⟩

/-- Settles O33: the frame of a one-state instruction, of which these write the registers their rules name. -/
theorem inputOutputFrame : Obligations.InputOutputFrame := by
  intro s
  refine ⟨inputOutput_frame s rfl rfl (by decide), inputOutput_frame s rfl rfl (by decide),
    List.forall_mem_cons.2 ⟨?_, List.forall_mem_singleton.2 ?_⟩,
    List.forall_mem_cons.2 ⟨?_, List.forall_mem_singleton.2 ?_⟩⟩
  all_goals exact inputOutput_frame s rfl rfl (by decide)

end Sys2Proof.Proofs

/-! ### Errors, interrupts and the host interface (60_exceptions.md)

`step` performs a list of timing states, `stepInstruction` repeats `stepCycle`. The two agree because no timing state but
the last of an instruction, or RT2, leaves the engine at a boundary (R234), and the ten states `stepInstruction` allows
are enough: three fetch states, at most four of the instruction and three of the interrupt cycle (R113, R213). -/

namespace Sys2Proof.Machine

open Sys2Proof.Statements

/-! #### The states of the interrupt cycle and the DecodeError state, performed -/

section Interrupt
variable {s : State} (hS : s.S = true) (hR : s.R = true)
include hS hR

/-- The interrupt-cycle states by SC (R213). -/
theorem stepCycle_rt0 (hSC : s.SC = 0) : stepCycle s = .next (rt0 s) :=
  stepCycle_of_timingState? hS (by simp [timingState?, hR, hSC, interruptStates])

theorem stepCycle_rt1 (hSC : s.SC = 1) : stepCycle s = .next (rt1 s) :=
  stepCycle_of_timingState? hS (by simp [timingState?, hR, hSC, interruptStates])

theorem stepCycle_rt2 (hSC : s.SC = 2) : stepCycle s = .next (rt2 s) :=
  stepCycle_of_timingState? hS (by simp [timingState?, hR, hSC, interruptStates])

end Interrupt

/-- The T3 state of an illegal word is the DecodeError state (R202). -/
theorem stepCycle_decodeErrorState {s : State} {why : IllegalWord} (hS : s.S = true) (hR : s.R = false)
    (hSC : s.SC = 3) (hd : decode s.IR = .error why) : stepCycle s = .next (decodeErrorState s) :=
  stepCycle_of_timingState? hS (by simp [timingState?, hR, hSC, hd])

/-- Where SC names no timing state, a running engine faults (R31). -/
theorem stepCycle_noTimingState {s : State} (hS : s.S = true) (h : timingState? s = none) :
    stepCycle s = .fault (.noTimingState s.SC) := by
  simp [stepCycle, hS, h]

/-! #### Repeated timing states -/

/-- One timing state of the loop of R234. -/
theorem repeatCycles_succ {s t : State} (h : stepCycle s = .next t) (n : Nat) :
    repeatCycles (n + 1) s = if atBoundary t then .next t else repeatCycles n t := by
  simp only [repeatCycles, h]

theorem repeatCycles_goesOn {s t : State} (h : stepCycle s = .next t) (ht : atBoundary t = false) (n : Nat) :
    repeatCycles (n + 1) s = repeatCycles n t := by
  rw [repeatCycles_succ h, ht]
  rfl

theorem repeatCycles_stops {s t : State} (h : stepCycle s = .next t) (ht : atBoundary t = true) (n : Nat) :
    repeatCycles (n + 1) s = .next t := by
  rw [repeatCycles_succ h, if_pos ht]

/-- Where `step_instruction` stops, read out (R234). -/
theorem atBoundary_iff {s : State} : atBoundary s = true ↔ s.S = false ∨ (s.SC = 0 ∧ s.R = false) := by
  simp [atBoundary]

theorem not_atBoundary_of_SC {s : State} (hS : s.S = true) (hSC : s.SC ≠ 0) : atBoundary s = false := by
  refine Bool.eq_false_iff.2 fun h => ?_
  rcases atBoundary_iff.1 h with hS' | ⟨hSC', -⟩
  · simp [hS] at hS'
  · exact hSC hSC'

/-- The loop of R234 answers the state after its first timing state, if that is a boundary, or what it answers from there. -/
theorem repeatCycles_succ_cases {n : Nat} {s t : State} (h : repeatCycles (n + 1) s = .next t) :
    ∃ u, stepCycle s = .next u ∧
      ((atBoundary u = true ∧ t = u) ∨ (atBoundary u = false ∧ repeatCycles n u = .next t)) := by
  cases hc : stepCycle s with
  | fault f => simp only [repeatCycles, hc] at h; cases h
  | refused r => simp only [repeatCycles, hc] at h; cases h
  | next u =>
    refine ⟨u, rfl, ?_⟩
    cases hb : atBoundary u with
    | true => cases (repeatCycles_stops hc hb n).symm.trans h; exact .inl ⟨rfl, rfl⟩
    | false => exact .inr ⟨rfl, repeatCycles_goesOn hc hb n ▸ h⟩

/-- In the middle of an instruction or of the interrupt cycle the engine is at no boundary. -/
theorem InProgress.not_atBoundary {s : State} (h : InProgress s) (hS : s.S = true) : atBoundary s = false := by
  rcases h with hR | hSC
  · simp [atBoundary, hS, hR]
  · exact not_atBoundary_of_SC hS fun h0 => by simp [h0] at hSC

/-- At SC = 0 the engine is at a boundary unless it runs with R = 1. -/
theorem atBoundary_of_not_interrupted {s : State} (hSC : s.SC = 0) (h : (s.S && s.R) = false) :
    atBoundary s = true := by
  rcases Bool.and_eq_false_iff.1 h with hS | hR
  · exact atBoundary_iff.2 (.inl hS)
  · exact atBoundary_iff.2 (.inr ⟨hSC, hR⟩)

/-- Three timing states perform the whole interrupt cycle (R213). -/
theorem repeatCycles_interruptCycle {s : State} {n : Nat} (hS : s.S = true) (hR : s.R = true) (hSC : s.SC = 0)
    (hn : 3 ≤ n) : repeatCycles n s = .next (interruptCycle s) := by
  obtain ⟨n, rfl⟩ := Nat.exists_eq_add_of_le' hn
  rw [repeatCycles_goesOn (stepCycle_rt0 hS hR hSC) (InProgress.not_atBoundary (.inl hR) hS),
    repeatCycles_goesOn (stepCycle_rt1 (s := rt0 s) hS hR rfl) (InProgress.not_atBoundary (.inl hR) hS),
    repeatCycles_stops (stepCycle_rt2 (s := rt1 (rt0 s)) hS hR rfl) (by simp [atBoundary])]
  rfl

/-- After a timing state that leaves SC = 0 the loop stops, or performs the interrupt cycle and then stops (D15). -/
theorem repeatCycles_last {s t : State} {n : Nat} (h : stepCycle s = .next t) (hSC : t.SC = 0) (hn : 3 ≤ n) :
    repeatCycles (n + 1) s = .next (foldInterrupt t) := by
  by_cases hfold : (t.S && t.R) = true
  · obtain ⟨hS, hR⟩ := Bool.and_eq_true_iff.1 hfold
    rw [foldInterrupt_of hfold, repeatCycles_goesOn h (InProgress.not_atBoundary (.inl hR) hS),
      repeatCycles_interruptCycle hS hR hSC hn]
  · have hfold : (t.S && t.R) = false := by simpa using hfold
    rw [foldInterrupt_of_not hfold, repeatCycles_stops h (atBoundary_of_not_interrupted hSC hfold)]

/-- Past T2 the loop performs the pending states, and the interrupt cycle if one follows. -/
theorem repeatCycles_inProgress {s : State} {n : Nat} (hS : s.S = true) (h : InProgress s)
    (hn : (pendingStates s).length + 3 ≤ n) : repeatCycles n s = finishWith (pendingStates s) s := by
  generalize hp : pendingStates s = fs at hn
  induction fs generalizing s n with
  | nil =>
    obtain ⟨n, rfl⟩ := Nat.exists_eq_add_of_le' hn
    have hfault := stepCycle_noTimingState hS (by rw [timingState?_eq_head? h, hp]; rfl)
    simp only [repeatCycles, hfault, finishWith]
  | cons f rest ih =>
    obtain ⟨n, rfl⟩ : ∃ m, n = m + 1 := Nat.exists_eq_add_of_le' (by omega)
    have hf : stepCycle s = .next (f s) :=
      stepCycle_of_timingState? hS (by rw [timingState?_eq_head? h, hp]; rfl)
    rw [List.length_cons] at hn
    rcases pendingStates_tail hS h hp with ⟨hrest, hp', h', hS'⟩ | ⟨rfl, hSC⟩
    · rw [repeatCycles_goesOn hf (h'.not_atBoundary hS'), ih hS' h' hp' (by omega), finishWith_of_ne_nil hrest]
      rfl
    · exact repeatCycles_last hf hSC (by omega)

/-- No more than four timing states are pending (R106, R108). -/
theorem length_pendingStates_le (s : State) : (pendingStates s).length ≤ 4 := by
  by_cases hR : s.R = true
  · have hlength : interruptStates.length = 3 := rfl
    rw [pendingStates_interrupt hR, List.length_drop]
    omega
  · have hR : s.R = false := by simpa using hR
    cases hd : decode s.IR with
    | ok i =>
      have := length_statesAfterDecode_le i s
      rw [pendingStates_ok hR hd, List.length_drop]
      omega
    | error why =>
      rw [pendingStates_error hR hd]
      split <;> simp

/-- From the state T1 left, eight timing states are T2 and all that follows it. -/
theorem repeatCycles_runFetched {s : State} {n : Nat} (hS : s.S = true) (hR : s.R = false) (hSC : s.SC = 2)
    (hn : 8 ≤ n) : repeatCycles n s = runFetched s := by
  obtain ⟨n, rfl⟩ : ∃ m, n = m + 1 := Nat.exists_eq_add_of_le' (by omega)
  have hin : InProgress (t2 s) := .inr (by simp)
  have hlength := length_pendingStates_le (t2 s)
  rw [repeatCycles_goesOn (stepCycle_t2 hS hR hSC) (hin.not_atBoundary hS),
    repeatCycles_inProgress (s := t2 s) hS hin (by omega), runFetched_eq hR]

/-- The loop of R234 from a running engine is the step. -/
theorem step_eq_repeatCycles {s : State} (hS : s.S = true) : step s = repeatCycles Config.maxStepStates s := by
  by_cases hin : InProgress s
  · have hlength := length_pendingStates_le s
    rw [step_inProgress hS hin, repeatCycles_inProgress hS hin (by simp only [Config.maxStepStates]; omega)]
  · obtain ⟨hR, hlt⟩ := not_or.1 hin
    have hR : s.R = false := by simpa using hR
    have hlt : s.SC.toNat < 3 := by omega
    rw [step_fetching hS hR hlt, Config.maxStepStates]
    rcases SeqCount.cases_lt_three hlt with hSC | hSC | hSC <;> rw [hSC]
    · rw [repeatCycles_goesOn (stepCycle_t0 hS hR hSC) (not_atBoundary_of_SC hS nofun),
        repeatCycles_goesOn (stepCycle_t1 (s := t0 s) hS hR rfl) (not_atBoundary_of_SC hS nofun),
        repeatCycles_runFetched (s := t1 (t0 s)) hS hR rfl le_rfl]
      rfl
    · rw [repeatCycles_goesOn (stepCycle_t1 hS hR hSC) (not_atBoundary_of_SC hS nofun),
        repeatCycles_runFetched (s := t1 s) hS hR rfl (by decide)]
      rfl
    · rw [repeatCycles_runFetched hS hR hSC (by decide)]
      rfl

/-- `step` is the `step_instruction` of R234. -/
theorem step_eq_stepInstruction (s : State) : step s = stepInstruction s := by
  by_cases hS : s.S = true
  · rw [step_eq_repeatCycles hS, stepInstruction, if_pos hS]
  · rw [step_halted (by simpa using hS), stepInstruction, if_neg hS]

end Sys2Proof.Machine

/-! #### What a step leaves, and what it counts -/

namespace Sys2Proof.Machine

open Sys2Proof.Statements

/-- The interrupt cycle that may follow the last state of an instruction leaves a boundary. -/
theorem foldInterrupt_atBoundary {s : State} (hSC : s.SC = 0) : atBoundary (foldInterrupt s) = true := by
  by_cases hfold : (s.S && s.R) = true
  · rw [foldInterrupt_of hfold, interruptCycle_eq]
    exact atBoundary_iff.2 (.inr ⟨rfl, rfl⟩)
  · have hfold : (s.S && s.R) = false := by simpa using hfold
    rw [foldInterrupt_of_not hfold]
    exact atBoundary_of_not_interrupted hSC hfold

/-- Finishing the pending states ends at a boundary. -/
theorem finishWith_atBoundary {s t : State} (hS : s.S = true) (h : InProgress s)
    (ht : finishWith (pendingStates s) s = .next t) : atBoundary t = true := by
  have hne : pendingStates s ≠ [] := by
    intro hnil
    rw [hnil] at ht
    cases ht
  rw [finishWith_of_ne_nil hne] at ht
  cases ht
  exact foldInterrupt_atBoundary (cycles_performAll_pendingStates hS h hne).2

/-- Every state a step answers is halted or at an instruction boundary (R234). -/
theorem step_atBoundary {s t : State} (h : step s = .next t) : atBoundary t = true := by
  by_cases hS : s.S = true
  · by_cases hin : InProgress s
    · exact finishWith_atBoundary hS hin (step_inProgress hS hin ▸ h)
    · obtain ⟨hR, hlt⟩ := not_or.1 hin
      obtain ⟨u, -, hSu, hinu, hstep⟩ := cycles_fetch hS (by simpa using hR) (by omega)
      exact finishWith_atBoundary hSu hinu (hstep ▸ h)
  · have hS : s.S = false := by simpa using hS
    rw [step_halted hS] at h
    cases h
    exact atBoundary_iff.2 (.inl hS)

/-- A phase counts one timing state, and an instruction exactly when it is its instruction's last (R230, D19). -/
theorem phase_counts {i : Instr} {p : Nat} {f : State → State} (hf : (phasesOf i)[p]? = some f) (s : State) :
    (f s).profiler.cycles = s.profiler.cycles + 1 ∧
      (f s).profiler.instructions = s.profiler.instructions + if p + 1 = phaseCount i then 1 else 0 := by
  refine phases_induction (P := fun i p f => (f s).profiler.cycles = s.profiler.cycles + 1 ∧
    (f s).profiler.instructions = s.profiler.instructions + if p + 1 = phaseCount i then 1 else 0)
    ?memory ?register ?inputOutput hf
  case memory => intro ind a; and_intros <;> rfl
  case register => and_intros <;> rfl
  case inputOutput => and_intros <;> rfl

/-- The table of R108 and R109 counts the phases the model performs. -/
theorem length_phasesOf (i : Instr) : (phasesOf i).length = phaseCount i := by
  cases i <;> rfl

/-- A timing state counts at most itself (R230). -/
theorem stepCycle_cycles {s t : State} (h : stepCycle s = .next t) : t.profiler.cycles ≤ s.profiler.cycles + 1 := by
  rcases stepCycle_cases h with ⟨-, rfl⟩ | ⟨-, -, hrt⟩ | ⟨-, -, ht⟩
  · exact Nat.le_succ _
  · rcases hrt with ⟨-, rfl⟩ | ⟨-, rfl⟩ | ⟨-, rfl⟩ <;> exact le_rfl
  · rcases ht with ⟨-, rfl⟩ | ⟨-, rfl⟩ | ⟨-, rfl⟩ | ⟨-, -, rfl⟩ | ⟨-, -, -, rfl⟩ | ⟨i, p, f, -, -, hf, rfl⟩
    · exact le_rfl
    · exact le_rfl
    · exact le_rfl
    · exact le_rfl
    · exact le_rfl
    · exact (phase_counts hf s).1.le

/-- The loop of R234 counts no more timing states than it may perform. -/
theorem repeatCycles_cycles {n : Nat} {s t : State} (h : repeatCycles n s = .next t) :
    t.profiler.cycles ≤ s.profiler.cycles + n := by
  induction n generalizing s with
  | zero => cases h; exact le_rfl
  | succ n ih =>
    obtain ⟨u, hc, hend⟩ := repeatCycles_succ_cases h
    have hfirst := stepCycle_cycles hc
    rcases hend with ⟨-, rfl⟩ | ⟨-, hrest⟩
    · omega
    · have hothers := ih hrest
      omega

/-- How many instructions a `step_instruction` call can still complete: none once its interrupt cycle has begun. -/
def completionsLeft (s : State) : Nat := if s.R then 0 else 1

/-- What leads from `s` to `t`, in one `step_instruction` call, completes no more instructions than `s` has left, and leaves
as many of them as it did not complete. -/
structure CompletesWithin (s t : State) : Prop where
  grows : s.profiler.instructions ≤ t.profiler.instructions
  within : t.profiler.instructions ≤ s.profiler.instructions + completionsLeft s
  leaves : atBoundary t = false →
    t.profiler.instructions + completionsLeft t ≤ s.profiler.instructions + completionsLeft s

/-- A timing state that completes no instruction and keeps R. -/
theorem completesWithin_of_eq {s t : State} (hR : t.R = s.R)
    (hcount : t.profiler.instructions = s.profiler.instructions) : CompletesWithin s t := by
  constructor <;> simp [completionsLeft, hR, hcount]

/-- A phase that ends its instruction completes it; then the engine is at a boundary or begins the interrupt cycle. -/
theorem completesWithin_of_ends {s t : State} (hR : s.R = false) (h : Ends s t)
    (hcount : t.profiler.instructions = s.profiler.instructions + 1) : CompletesWithin s t := by
  have hleft : completionsLeft s = 1 := by simp [completionsLeft, hR]
  refine ⟨by omega, by omega, fun hb => ?_⟩
  have hR' : t.R = true := by
    by_contra hR'
    rw [atBoundary_iff.2 (.inr ⟨h.SC, by simpa using hR'⟩)] at hb
    cases hb
  have hleft' : completionsLeft t = 0 := by simp [completionsLeft, hR']
  omega

theorem completesWithin_phase {i : Instr} {p : Nat} {f : State → State} {s : State} (hR : s.R = false)
    (hf : (phasesOf i)[p]? = some f) : CompletesWithin s (f s) := by
  obtain ⟨-, hcount⟩ := phase_counts hf s
  obtain ⟨hp, -⟩ := List.getElem?_eq_some_iff.1 hf
  rw [← length_phasesOf] at hcount
  rcases phase_continues_or_ends hf with ⟨⟨g, hg⟩, hcontinues⟩ | ⟨hnone, hends⟩
  · obtain ⟨hp', -⟩ := List.getElem?_eq_some_iff.1 hg
    exact completesWithin_of_eq (hcontinues s).R (by rw [hcount, if_neg hp'.ne, Nat.add_zero])
  · have hlast : p + 1 = (phasesOf i).length := Nat.le_antisymm hp (List.getElem?_eq_none_iff.1 hnone)
    exact completesWithin_of_ends hR (hends s) (by rw [hcount, if_pos hlast])

/-- The timing states of a running engine keep to the one instruction (R112, R230). -/
theorem completesWithin_of_stepCycle {s t : State} (hS : s.S = true) (h : stepCycle s = .next t) :
    CompletesWithin s t := by
  rcases stepCycle_cases h with ⟨hS', -⟩ | ⟨-, -, hrt⟩ | ⟨-, hR, ht⟩
  · simp [hS] at hS'
  · rcases hrt with ⟨-, rfl⟩ | ⟨-, rfl⟩ | ⟨-, rfl⟩
    · exact completesWithin_of_eq rfl rfl
    · exact completesWithin_of_eq rfl rfl
    · exact ⟨le_rfl, Nat.le_add_right _ _, fun hb => by simp [atBoundary] at hb⟩
  · rcases ht with ⟨-, rfl⟩ | ⟨-, rfl⟩ | ⟨-, rfl⟩ | ⟨-, -, rfl⟩ | ⟨-, -, -, rfl⟩ | ⟨i, p, f, -, -, hf, rfl⟩
    · exact completesWithin_of_eq rfl rfl
    · exact completesWithin_of_eq rfl rfl
    · exact completesWithin_of_eq rfl rfl
    · exact completesWithin_of_eq rfl rfl
    · exact completesWithin_of_eq rfl rfl
    · exact completesWithin_phase hR hf

/-- The loop of R234 counts at most the one instruction it can still complete. -/
theorem repeatCycles_instructions {n : Nat} {s t : State} (hS : s.S = true) (h : repeatCycles n s = .next t) :
    s.profiler.instructions ≤ t.profiler.instructions ∧
      t.profiler.instructions ≤ s.profiler.instructions + completionsLeft s := by
  induction n generalizing s with
  | zero => cases h; exact ⟨le_rfl, Nat.le_add_right _ _⟩
  | succ n ih =>
    obtain ⟨u, hc, hend⟩ := repeatCycles_succ_cases h
    obtain ⟨hgrows, hwithin, hleaves⟩ := completesWithin_of_stepCycle hS hc
    rcases hend with ⟨-, rfl⟩ | ⟨hb, hrest⟩
    · exact ⟨hgrows, hwithin⟩
    · have hSu : u.S = true := by
        by_contra hSu
        rw [atBoundary_iff.2 (.inl (by simpa using hSu))] at hb
        cases hb
      have hleft := hleaves hb
      obtain ⟨hgrows', hwithin'⟩ := ih hSu hrest
      omega

/-- A step completes at most one instruction (R233). -/
theorem step_instructions {s t : State} (h : step s = .next t) :
    s.profiler.instructions ≤ t.profiler.instructions ∧
      t.profiler.instructions ≤ s.profiler.instructions + 1 := by
  by_cases hS : s.S = true
  · rw [step_eq_repeatCycles hS] at h
    obtain ⟨hlo, hhi⟩ := repeatCycles_instructions hS h
    have hleft : completionsLeft s ≤ 1 := by unfold completionsLeft; split <;> omega
    omega
  · rw [step_halted (by simpa using hS)] at h
    cases h
    omega

end Sys2Proof.Machine

namespace Sys2Proof.Proofs

open Sys2Proof.Machine Sys2Proof.Statements

/-- Settles O7: no timing state but the last leaves a boundary, and ten are enough. -/
theorem stepEqualsRepeatedCycles : Obligations.StepEqualsRepeatedCycles := step_eq_stepInstruction

/-- Settles O8: the pending states end at SC = 0, the interrupt cycle at R = 0, and the loop performs at most ten states. -/
theorem stepEndsAtBoundary : Obligations.StepEndsAtBoundary := by
  intro s t h
  refine ⟨atBoundary_iff.1 (step_atBoundary h), ?_⟩
  by_cases hS : s.S = true
  · exact repeatCycles_cycles (step_eq_repeatCycles hS ▸ h)
  · rw [step_halted (by simpa using hS)] at h
    cases h
    exact Nat.le_add_right _ _

end Sys2Proof.Proofs

/-! #### The events and the report of a timing state (R230 to R232)

`cycleEvents` is read from the tables of R58 and R108; what the timing state performed does to the counters and to memory
is compared with it once, state by state. -/

namespace Sys2Proof.Machine

open Sys2Proof.Statements

section Events
variable {s : State} (hS : s.S = true) (hnext : (timingState? s).isSome = true)
include hS hnext

/-- RT1 emits a write and the other two interrupt-cycle states no access (R58, R215). -/
theorem cycleEvents_interrupt (hR : s.R = true) :
    cycleEvents s = (if s.SC.toNat = 1 then [Event.memWrite s.AR] else []) ++ [.cycle] := by
  simp [cycleEvents, hS, hnext, hR]

/-- T1 emits a read, T0 and T2 no access (R58, R103). -/
theorem cycleEvents_fetch (hR : s.R = false) (hlt : s.SC.toNat < 3) :
    cycleEvents s = (if s.SC.toNat = 1 then [Event.memRead s.AR] else []) ++ [.cycle] := by
  by_cases h1 : s.SC.toNat = 1 <;> simp [cycleEvents, hS, hnext, hR, hlt, h1]

/-- From T3 on the events are those of the instruction in IR. -/
theorem cycleEvents_execution {i : Instr} (hR : s.R = false) (hlo : 3 ≤ s.SC.toNat) (hd : decode s.IR = .ok i) :
    cycleEvents s = executionEvents i s ++ [.cycle] := by
  have h1 : s.SC.toNat ≠ 1 := by omega
  have h3 : ¬ s.SC.toNat < 3 := by omega
  simp [cycleEvents, hS, hnext, hR, h1, h3, hd]

/-- The DecodeError state emits its CycleEvent alone (R202). -/
theorem cycleEvents_decodeError {why : IllegalWord} (hR : s.R = false) (hSC : s.SC = 3)
    (hd : decode s.IR = .error why) : cycleEvents s = [.cycle] := by
  simp [cycleEvents, hS, hnext, hR, hSC, hd]

end Events

/-- The events of the indirect state (R58). -/
theorem executionEvents_indirect {i : Instr} {s : State} (hm : i.isMemoryReference = true) (hI : s.I = true)
    (hSC : s.SC = 3) : executionEvents i s = [.memRead s.AR] := by
  simp [executionEvents, hm, hI, hSC]

/-- The events of phase `p` (R58, R230). -/
theorem executionEvents_phase {i : Instr} {s : State} {p : Nat} (hSC : s.SC.toNat = phaseSC i s p) :
    executionEvents i s = phaseAccesses i p s ++ if p + 1 = phaseCount i then [.instructionCompleted] else [] := by
  have hp : phaseIndex i s = p := by
    unfold phaseIndex
    unfold phaseSC at hSC
    omega
  have hnot : (i.isMemoryReference && s.I && s.SC.toNat == 3) = false := by
    cases hb : i.isMemoryReference && s.I with
    | false => rfl
    | true =>
      have hSC : s.SC.toNat = 4 + p := by simpa [phaseSC, hb] using hSC
      simpa using show s.SC.toNat ≠ 3 by omega
  simp [executionEvents, hnot, hp]

/-- The timing state that leads from `s` to `t` counts the events `events`, and it stores at AR, which they report, or
stores nothing, and they report no write (R55, R231). -/
structure Accounts (stores : Prop) (events : List Event) (s t : State) : Prop where
  profiler : t.profiler = events.foldl (fun p e => p.count e) s.profiler
  memory :
    (stores ∧ events.filterMap Event.writtenAddress = [s.AR] ∧ ∃ v, t.M = s.M.set s.AR.toNat v) ∨
    (¬ stores ∧ events.filterMap Event.writtenAddress = [] ∧ t.M = s.M)

/-- Each execution phase does what the tables of R58 and R108 say of it. -/
theorem accounts_phase {i : Instr} {p : Nat} {f : State → State} (hf : (phasesOf i)[p]? = some f) (s : State) :
    Accounts (storePhase i = some p)
      (phaseAccesses i p s ++ (if p + 1 = phaseCount i then [.instructionCompleted] else []) ++ [.cycle]) s (f s) := by
  refine phases_induction (P := fun i p f => Accounts (storePhase i = some p)
    (phaseAccesses i p s ++ (if p + 1 = phaseCount i then [.instructionCompleted] else []) ++ [.cycle]) s (f s))
    ?memory ?register ?inputOutput hf
  case memory =>
    intro ind a
    exact ⟨⟨rfl, .inr ⟨nofun, rfl, rfl⟩⟩, ⟨rfl, .inr ⟨nofun, rfl, rfl⟩⟩, ⟨rfl, .inr ⟨nofun, rfl, rfl⟩⟩,
      ⟨rfl, .inr ⟨nofun, rfl, rfl⟩⟩, ⟨rfl, .inr ⟨nofun, rfl, rfl⟩⟩, ⟨rfl, .inr ⟨nofun, rfl, rfl⟩⟩,
      ⟨rfl, .inl ⟨rfl, rfl, _, rfl⟩⟩, ⟨rfl, .inr ⟨nofun, rfl, rfl⟩⟩, ⟨rfl, .inl ⟨rfl, rfl, _, rfl⟩⟩,
      ⟨rfl, .inr ⟨nofun, rfl, rfl⟩⟩, ⟨rfl, .inr ⟨nofun, rfl, rfl⟩⟩, ⟨rfl, .inl ⟨rfl, rfl, _, rfl⟩⟩⟩
  case register => and_intros <;> exact ⟨rfl, .inr ⟨nofun, rfl, rfl⟩⟩
  case inputOutput => and_intros <;> exact ⟨rfl, .inr ⟨nofun, rfl, rfl⟩⟩

/-- In the interrupt cycle RT1 stores and the other two do not (R215). -/
theorem storesNow_interrupt_iff {s : State} (hS : s.S = true) (hR : s.R = true) : storesNow s ↔ s.SC = 1 := by
  simp [storesNow, hS, hR]

/-- Elsewhere a store is a storing phase (R58). -/
theorem storesNow_iff {s : State} (hS : s.S = true) (hR : s.R = false) :
    storesNow s ↔ ∃ i p, decode s.IR = .ok i ∧ storePhase i = some p ∧
      s.SC.toNat = 3 + (if s.I then 1 else 0) + p := by
  simp [storesNow, hS, hR]

/-- The fetch states store nothing (R58). -/
theorem not_storesNow_fetch {s : State} (hS : s.S = true) (hR : s.R = false) (hlt : s.SC.toNat < 3) :
    ¬ storesNow s := by
  rw [storesNow_iff hS hR]
  rintro ⟨i, p, -, -, hSC⟩
  omega

/-- A fetch state counts its read, and memory stays as it is. -/
theorem accounts_fetch {s t : State} (hS : s.S = true) (hR : s.R = false) (hnext : (timingState? s).isSome = true)
    (ht : (s.SC = 0 ∧ t = t0 s) ∨ (s.SC = 1 ∧ t = t1 s) ∨ (s.SC = 2 ∧ t = t2 s)) :
    Accounts (storesNow s) (cycleEvents s) s t := by
  have hlt : s.SC.toNat < 3 := by rcases ht with ⟨hSC, -⟩ | ⟨hSC, -⟩ | ⟨hSC, -⟩ <;> simp [hSC]
  have hstores := not_storesNow_fetch hS hR hlt
  rw [cycleEvents_fetch hS hnext hR hlt]
  rcases ht with ⟨hSC, rfl⟩ | ⟨hSC, rfl⟩ | ⟨hSC, rfl⟩ <;> rw [hSC] <;> exact ⟨rfl, .inr ⟨hstores, rfl, rfl⟩⟩

/-- Only memory-reference instructions store. -/
theorem isMemoryReference_of_storePhase {i : Instr} {p : Nat} (h : storePhase i = some p) :
    i.isMemoryReference = true := by
  cases i with
  | sta | bsa | isz => rfl
  | _ => cases h

/-- Where phase `p` of `i` stands next, the state stores exactly if `p` is the storing phase of `i`. -/
theorem storesNow_phase_iff {s : State} {i : Instr} {p : Nat} (hS : s.S = true) (hR : s.R = false)
    (hd : decode s.IR = .ok i) (hSC : s.SC.toNat = phaseSC i s p) : storesNow s ↔ storePhase i = some p := by
  have hphase {q : Nat} (hstore : storePhase i = some q) :
      phaseSC i s p = 3 + (if s.I then 1 else 0) + p := by
    simp [phaseSC, isMemoryReference_of_storePhase hstore]
  rw [storesNow_iff hS hR]
  constructor
  · rintro ⟨j, q, hdj, hstore, hSCq⟩
    cases hd.symm.trans hdj
    have hq : q = p := by have := hphase hstore; omega
    rw [← hq, hstore]
  · exact fun hstore => ⟨i, p, hd, hstore, hSC.trans (hphase hstore)⟩

/-- Every timing state counts and stores what the tables of R58 and R108 say of it (R230 to R232). -/
theorem accounts_of_stepCycle {s t : State} (h : stepCycle s = .next t) :
    Accounts (storesNow s) (cycleEvents s) s t := by
  rcases stepCycle_cases h with ⟨hS, rfl⟩ | ⟨hS, hR, hrt⟩ | ⟨hS, hR, ht⟩
  · rw [cycleEvents_halted hS]
    exact ⟨rfl, .inr ⟨fun hstores => by simp [storesNow, hS] at hstores, rfl, rfl⟩⟩
  · rw [cycleEvents_interrupt hS (timingState_isSome hS h) hR, storesNow_interrupt_iff hS hR]
    rcases hrt with ⟨hSC, rfl⟩ | ⟨hSC, rfl⟩ | ⟨hSC, rfl⟩ <;> rw [hSC]
    · exact ⟨rfl, .inr ⟨nofun, rfl, rfl⟩⟩
    · exact ⟨rfl, .inl ⟨rfl, rfl, _, rfl⟩⟩
    · exact ⟨rfl, .inr ⟨nofun, rfl, rfl⟩⟩
  · have hnext := timingState_isSome hS h
    rcases ht with ⟨hSC, rfl⟩ | ⟨hSC, rfl⟩ | ⟨hSC, rfl⟩ | ⟨hSC, ⟨why, hd⟩, rfl⟩ | ⟨hSC, hI, ⟨i, hd, hm⟩, rfl⟩ |
      ⟨i, p, f, hd, hSC, hf, rfl⟩
    · exact accounts_fetch hS hR hnext (.inl ⟨hSC, rfl⟩)
    · exact accounts_fetch hS hR hnext (.inr (.inl ⟨hSC, rfl⟩))
    · exact accounts_fetch hS hR hnext (.inr (.inr ⟨hSC, rfl⟩))
    · have hstores : ¬ storesNow s := by simp [storesNow_iff hS hR, hd]
      rw [cycleEvents_decodeError hS hnext hR hSC hd]
      exact ⟨rfl, .inr ⟨hstores, rfl, rfl⟩⟩
    · have hstores : ¬ storesNow s := by
        rw [storesNow_iff hS hR]
        rintro ⟨j, q, -, -, hSCq⟩
        simp only [hSC, hI, if_true, BitVec.reduceToNat] at hSCq
        omega
      rw [cycleEvents_execution hS hnext hR (by simp [hSC]) hd, executionEvents_indirect hm hI hSC]
      exact ⟨rfl, .inr ⟨hstores, rfl, rfl⟩⟩
    · rw [cycleEvents_execution hS hnext hR (hSC ▸ three_le_phaseSC i s p) hd, executionEvents_phase hSC,
        storesNow_phase_iff hS hR hd hSC]
      exact accounts_phase hf s

/-- The report goes with the timing state (R232). -/
theorem stepCycleReport_iff {s t : State} {report : CycleReport} :
    stepCycleReport s = .next (t, report) ↔ stepCycle s = .next t ∧ report = cycleReport s t := by
  unfold stepCycleReport
  cases stepCycle s with
  | next u =>
    simp only [Host.Outcome.next.injEq, Prod.mk.injEq]
    constructor
    · rintro ⟨rfl, rfl⟩; exact ⟨rfl, rfl⟩
    · rintro ⟨rfl, rfl⟩; exact ⟨rfl, rfl⟩
  | fault f => simp
  | refused r => simp

/-- Whether the DecodeError state is next, read out (R202). -/
theorem atDecodeError_iff {s : State} :
    atDecodeError s = true ↔ s.S = true ∧ s.R = false ∧ s.SC = 3 ∧ ∃ why, decode s.IR = .error why := by
  have hSC : s.SC.toNat = 3 ↔ s.SC = 3 := BitVec.toNat_inj (y := 3)
  cases hd : decode s.IR <;> simp [atDecodeError, hd, hSC, and_assoc]

/-- The report names an error exactly as the DecodeError state, with its word and address (R202, D23). -/
theorem cycleReport_error {s t : State} (h : stepCycle s = .next t) :
    (cycleReport s t).error = if atDecodeError s then some (.decodeError s.IR (s.PC - 1)) else none := by
  by_cases hat : atDecodeError s = true
  · obtain ⟨hS, hR, hSC, why, hd⟩ := atDecodeError_iff.1 hat
    cases (stepCycle_decodeErrorState hS hR hSC hd).symm.trans h
    simp [cycleReport, hat]
  · simp [cycleReport, hat]

/-- The registers reported are those whose value changed (R232). -/
theorem mem_cycleReport_changed {s t : State} {r : RegName} :
    r ∈ (cycleReport s t).changed ↔ r.value s ≠ r.value t := by
  simp [cycleReport, RegName.mem_all]

end Sys2Proof.Machine

namespace Sys2Proof.Proofs

open Sys2Proof.Machine Sys2Proof.Statements

/-- Settles O57: state by state, the counters go up as the tables say. -/
theorem countersCountTheEvents : Obligations.CountersCountTheEvents :=
  fun _ _ h => (accounts_of_stepCycle h).profiler

/-- Settles O58: the report's parts, of a state that stores at AR and of one that stores nothing. -/
theorem cycleReportIsTrue : Obligations.CycleReportIsTrue := by
  intro s t report hreport
  obtain ⟨h, rfl⟩ := stepCycleReport_iff.1 hreport
  refine ⟨h, rfl, fun r => mem_cycleReport_changed, ?address, ?length, ?store, ?noStore, ?error, ?only⟩
  case error =>
    rw [cycleReport_error h, ← atDecodeError_iff]
    by_cases hat : atDecodeError s = true <;> simp [hat]
  case only =>
    rw [cycleReport_error h]
    split
    · exact .inr rfl
    · exact .inl rfl
  all_goals
    have hwritten : (cycleReport s t).written = (cycleEvents s).filterMap Event.writtenAddress := rfl
    rcases (accounts_of_stepCycle h).memory with ⟨hstores, hevents, v, hM⟩ | ⟨hstores, hevents, hM⟩ <;>
      rw [hwritten, hevents]
  case address.inl =>
    intro a hchanged
    have ha : a = s.AR.toNat := by
      by_contra hne
      exact hchanged (keepsMemoryBut_of_set hM a hne)
    exact ⟨s.AR, List.mem_singleton_self _, ha.symm⟩
  case address.inr => exact fun a hchanged => absurd (keepsMemory_of_eq hM a) hchanged
  case length.inl => exact le_rfl
  case length.inr => exact Nat.zero_le 1
  case store.inl => exact fun _ => ⟨rfl, keepsMemoryBut_of_set hM⟩
  case store.inr => exact fun h => absurd h hstores
  case noStore.inl => exact absurd hstores
  case noStore.inr => exact fun _ => ⟨rfl, keepsMemory_of_eq hM⟩

end Sys2Proof.Proofs

/-! #### Runs (R233) -/

namespace Sys2Proof.Machine

open Sys2Proof.Statements

/-- One call of `step_instruction` in the loop of `run`. -/
theorem runLimited_succ {s : State} (hS : s.S = true) (n : Nat) :
    runLimited (n + 1) s = andThen (step s) (runLimited n) := by
  rw [runLimited, if_pos hS]
  cases step s <;> rfl

theorem runLimited_of_step {s u : State} (hS : s.S = true) (h : step s = .next u) (n : Nat) :
    runLimited (n + 1) s = runLimited n u := by
  rw [runLimited_succ hS, h]
  rfl

/-- A run of a running engine that answers has made a first call that answers. -/
theorem step_of_runLimited_succ {n : Nat} {s t : State} (hS : s.S = true) (h : runLimited (n + 1) s = .next t) :
    ∃ u, step s = .next u ∧ runLimited n u = .next t := by
  rw [runLimited_succ hS] at h
  cases hstep : step s with
  | next u => exact ⟨u, rfl, by rwa [hstep] at h⟩
  | fault f => rw [hstep] at h; cases h
  | refused r => rw [hstep] at h; cases h

/-- A run makes calls on a running engine and stops only halted or at its limit. -/
theorem stepsTo_of_runLimited {n : Nat} {s t : State} (h : runLimited n s = .next t) :
    ∃ calls, calls ≤ n ∧ stepsTo calls s t ∧ (t.S = false ∨ calls = n) := by
  induction n generalizing s with
  | zero => cases h; exact ⟨0, le_rfl, rfl, .inr rfl⟩
  | succ n ih =>
    cases hS : s.S with
    | false =>
      cases (runLimited_halted hS (n + 1)).symm.trans h
      exact ⟨0, Nat.zero_le _, rfl, .inl hS⟩
    | true =>
      obtain ⟨u, hstep, hrun⟩ := step_of_runLimited_succ hS h
      obtain ⟨calls, hle, hsteps, hend⟩ := ih hrun
      exact ⟨calls + 1, Nat.succ_le_succ hle, ⟨hS, u, hstep, hsteps⟩, hend.imp_right (congrArg (· + 1))⟩

/-- A run with just the limit for a number of calls makes them. -/
theorem runLimited_of_stepsTo {calls : Nat} {s t : State} (h : stepsTo calls s t) : runLimited calls s = .next t := by
  induction calls generalizing s with
  | zero => cases h; rfl
  | succ calls ih =>
    obtain ⟨hS, u, hstep, hrest⟩ := h
    rw [runLimited_of_step hS hstep, ih hrest]

/-- A call completes at most one instruction, so a number of calls at most as many. -/
theorem stepsTo_instructions {calls : Nat} {s t : State} (h : stepsTo calls s t) :
    s.profiler.instructions ≤ t.profiler.instructions ∧
      t.profiler.instructions ≤ s.profiler.instructions + calls := by
  induction calls generalizing s with
  | zero => cases h; exact ⟨le_rfl, le_rfl⟩
  | succ calls ih =>
    obtain ⟨-, u, hstep, hrest⟩ := h
    have hfirst := step_instructions hstep
    have hothers := ih hrest
    omega

/-- A longer run goes on from where a shorter one stopped. -/
theorem runLimited_add {m : Nat} (n : Nat) {s t : State} (h : runLimited m s = .next t) :
    runLimited (m + n) s = runLimited n t := by
  induction m generalizing s with
  | zero => cases h; rw [Nat.zero_add]
  | succ m ih =>
    cases hS : s.S with
    | false =>
      cases (runLimited_halted hS (m + 1)).symm.trans h
      rw [runLimited_halted hS, runLimited_halted hS]
    | true =>
      obtain ⟨u, hstep, hrun⟩ := step_of_runLimited_succ hS h
      rw [Nat.add_right_comm, runLimited_of_step hS hstep, ih hrun]

/-- What `run` returns is what its loop answers, and the report of it. -/
theorem run_iff {limit : Nat} {s t : State} {report : RunReport} :
    run limit s = .next (t, report) ↔ runLimited limit s = .next t ∧ report = runReport s t := by
  unfold run
  cases runLimited limit s with
  | next u =>
    simp only [Host.Outcome.next.injEq, Prod.mk.injEq]
    constructor
    · rintro ⟨rfl, rfl⟩; exact ⟨rfl, rfl⟩
    · rintro ⟨rfl, rfl⟩; exact ⟨rfl, rfl⟩
  | fault f => simp
  | refused r => simp

/-- The unlimited run returns the halted states that calls lead to. -/
theorem runReturns_iff {s t : State} : RunReturns s t ↔ t.S = false ∧ ∃ calls, stepsTo calls s t := by
  constructor
  · rintro ⟨limit, hrun, hS⟩
    obtain ⟨calls, -, hsteps, -⟩ := stepsTo_of_runLimited hrun
    exact ⟨hS, calls, hsteps⟩
  · rintro ⟨hS, calls, hsteps⟩
    exact ⟨calls, runLimited_of_stepsTo hsteps, hS⟩

/-- The unlimited run returns in one state only: past it a longer run makes no call. -/
theorem runReturns_unique {s t u : State} (ht : RunReturns s t) (hu : RunReturns s u) : t = u := by
  obtain ⟨m, hm, hSt⟩ := ht
  obtain ⟨n, hn, hSu⟩ := hu
  have ht : runLimited (m + n) s = .next t := (runLimited_add n hm).trans (runLimited_halted hSt n)
  have hu : runLimited (n + m) s = .next u := (runLimited_add m hn).trans (runLimited_halted hSu m)
  rw [Nat.add_comm] at hu
  cases ht.symm.trans hu
  rfl

/-! #### What the interrupt cycle, the DecodeError state and the host leave unchanged -/

theorem keepsRegisters_rt0 (s : State) : keepsRegisters [.AR, .TR, .SC] s (rt0 s) := by
  intro r hr
  cases r with
  | AR | TR | SC => simp at hr
  | _ => rfl

theorem keepsRegisters_rt1 (s : State) : keepsRegisters [.PC, .SC] s (rt1 s) := by
  intro r hr
  cases r with
  | PC | SC => simp at hr
  | _ => rfl

theorem keepsRegisters_rt2 (s : State) : keepsRegisters [.PC, .IEN, .R, .SC] s (rt2 s) := by
  intro r hr
  cases r with
  | PC | IEN | R | SC => simp at hr
  | _ => rfl

/-- What two states in a row may write. -/
theorem keepsRegisters_append {first second : List RegName} {s t u : State} (hst : keepsRegisters first s t)
    (htu : keepsRegisters second t u) : keepsRegisters (first ++ second) s u :=
  keepsRegisters_trans (keepsRegisters_mono hst (List.subset_append_left first second))
    (keepsRegisters_mono htu (List.subset_append_right first second))

/-- The interrupt cycle writes what its three states write. -/
theorem keepsRegisters_interruptCycle (s : State) :
    keepsRegisters [.PC, .IEN, .R, .AR, .TR, .SC] s (interruptCycle s) :=
  keepsRegisters_mono (keepsRegisters_append (keepsRegisters_append (keepsRegisters_rt0 s) (keepsRegisters_rt1 _))
    (keepsRegisters_rt2 _)) (by decide)

theorem keepsRegisters_decodeErrorState (s : State) : keepsRegisters [.S, .SC] s (decodeErrorState s) := by
  intro r hr
  cases r with
  | S | SC => simp at hr
  | _ => rfl

/-- The fetch of T0 and T1 writes PC, AR, IR and SC (R102, R103). -/
theorem keepsRegisters_fetched (s : State) : keepsRegisters [.PC, .AR, .IR, .SC] s (fetched s) := by
  intro r hr
  cases r with
  | PC | AR | IR | SC => simp at hr
  | _ => rfl

theorem keepsRegisters_hostInput (b : IoByte) (s : State) : keepsRegisters [.INPR, .FGI] s (hostInput b s) := by
  intro r hr
  cases r with
  | INPR | FGI => simp at hr
  | _ => rfl

theorem keepsRegisters_hostOutputReady (s : State) : keepsRegisters [.FGO] s (hostOutputReady s) := by
  intro r hr
  cases r with
  | FGO => simp at hr
  | _ => rfl

/-- A step at a boundary on an illegal word is the fetch, T2 and the DecodeError state (R202). -/
theorem step_illegalWord {s : State} {why : IllegalWord} (h : readyToFetch s)
    (hd : decode (s.M.read s.PC.toNat) = .error why) : step s = .next (decodeErrorState (t2 (fetched s))) := by
  have hd : decode (fetched s).IR = .error why := hd
  rw [step_readyToFetch h]
  simp only [runFetched, hd]

/-- The registers the DecodeError state is reported to change: SC and S. -/
theorem cycleReport_decodeErrorState_changed {s : State} (hS : s.S = true) (hSC : s.SC = 3) :
    (cycleReport s (decodeErrorState s)).changed = [.SC, .S] := by
  simp [cycleReport, RegName.all, RegName.value, hS, hSC, flagWord]

/-- The DecodeError state is no store, so it reports no address (R58). -/
theorem cycleReport_decodeErrorState_written {s : State} {why : IllegalWord} (hS : s.S = true) (hR : s.R = false)
    (hSC : s.SC = 3) (hd : decode s.IR = .error why) : (cycleReport s (decodeErrorState s)).written = [] := by
  have hnext := timingState_isSome hS (stepCycle_decodeErrorState hS hR hSC hd)
  simp only [cycleReport, cycleEvents_decodeError hS hnext hR hSC hd]
  rfl

/-- What `step_cycle` reports of the DecodeError state (D23). -/
theorem cycleReport_decodeErrorState {s : State} {why : IllegalWord} (hS : s.S = true) (hR : s.R = false)
    (hSC : s.SC = 3) (hd : decode s.IR = .error why) :
    cycleReport s (decodeErrorState s) = ⟨0, [.SC, .S], [], (decodeErrorState s).ERR⟩ := by
  have herror := cycleReport_error (stepCycle_decodeErrorState hS hR hSC hd)
  rw [if_pos (atDecodeError_iff.2 ⟨hS, hR, hSC, why, hd⟩)] at herror
  rw [← cycleReport_decodeErrorState_changed hS hSC, ← cycleReport_decodeErrorState_written hS hR hSC hd,
    decodeErrorState_ERR, ← herror]
  rfl

end Sys2Proof.Machine

namespace Sys2Proof.Proofs

open Sys2Proof.Machine Sys2Proof.Statements

/-- Settles O59: the loop unrolled, and read as a number of calls. -/
theorem runRepeatsSteps : Obligations.RunRepeatsSteps := by
  refine ⟨fun s => rfl, fun n s hS => runLimited_halted hS n, fun n s hS => runLimited_succ hS n,
    fun limit s t h => ⟨_, run_iff.2 ⟨h, rfl⟩⟩, fun limit s f h => by simp only [run, h], ?report,
    fun m n s t => runLimited_add n, fun s t => runReturns_iff, fun s t u => runReturns_unique⟩
  case report =>
    intro limit s t report hrun
    obtain ⟨h, rfl⟩ := run_iff.1 hrun
    obtain ⟨calls, hle, hsteps, hend⟩ := stepsTo_of_runLimited h
    have hcount := stepsTo_instructions hsteps
    refine ⟨h, ⟨calls, hle, hsteps, hend⟩, ?_, ?_, fun hS hS' => ?_, fun hS => ?_⟩
    · simp only [runReport]; omega
    · simp only [runReport]; omega
    · simp [runReport, hS, hS']
    · rcases hS with hS | hS <;> simp [runReport, hS]

/-- Settles O34: the state performed there is the DecodeError state, which writes S, SC and ERR. -/
theorem decodeErrorStateHalts : Obligations.DecodeErrorStateHalts := by
  intro s why hS hR hSC hd
  have hcycle := stepCycle_decodeErrorState hS hR hSC hd
  exact ⟨_, hcycle, rfl, rfl, rfl, keepsRegisters_decodeErrorState s, fun _ => rfl, rfl,
    stepCycleReport_iff.2 ⟨hcycle, (cycleReport_decodeErrorState hS hR hSC hd).symm⟩⟩

/-- Settles O35: the fetch, T2 and the DecodeError state, each with its own frame. -/
theorem illegalWordHaltsPrecisely : Obligations.IllegalWordHaltsPrecisely := by
  intro s why hready hd
  have ⟨_, hR, _⟩ := hready
  have hERR : (decodeErrorState (t2 (fetched s))).ERR = some (.decodeError (s.M.read s.PC.toNat) s.PC) := by
    simp [fetched]
  have hframe := keepsRegisters_append (keepsRegisters_append (keepsRegisters_fetched s)
    (keepsRegisters_latchFields _ _ (fetched s))) (keepsRegisters_decodeErrorState (t2 (fetched s)))
  exact ⟨_, step_illegalWord hready hd, ⟨rfl, _, _, hERR⟩, hERR, rfl, rfl, rfl, rfl, rfl, hR,
    keepsRegisters_mono hframe (by decide), fun _ => rfl, rfl⟩

/-- Settles O37: the three states by SC, each with its frame. -/
theorem interruptCycleStates : Obligations.InterruptCycleStates :=
  fun s hS hR =>
    ⟨fun hSC => ⟨_, stepCycle_rt0 hS hR hSC, rfl, rfl, rfl, keepsRegisters_rt0 s, fun _ => rfl⟩,
      fun hSC => ⟨_, stepCycle_rt1 hS hR hSC, (Memory.read_set_same · _ _), rfl, rfl, keepsRegisters_rt1 s,
        keepsMemoryBut_of_set rfl⟩,
      fun hSC => ⟨_, stepCycle_rt2 hS hR hSC, rfl, rfl, rfl, rfl, keepsRegisters_rt2 s, fun _ => rfl⟩⟩

/-- Settles O38: a step there is the interrupt cycle, which sets M[0] alone. -/
theorem interruptEntrySavesPc : Obligations.InterruptEntrySavesPc :=
  fun s hS hR hSC hwf =>
    ⟨_, step_interruptCycle hS hR hSC, Memory.read_set_same hwf 0 _, rfl, rfl, rfl, rfl, rfl, rfl,
      keepsRegisters_interruptCycle s, keepsMemoryBut_of_set (a := 0) rfl, rfl, rfl⟩

/-- Settles O39: the low 12 bits of the saved word are the PC, and BUN branches to them. -/
theorem handlerReturnRestoresPc : Obligations.HandlerReturnRestoresPc := by
  intro s t u hS hR hSC hwf hstep hM
  obtain ⟨t', hstep', hsaved, -⟩ := interruptEntrySavesPc s hS hR hSC hwf
  cases hstep.symm.trans hstep'
  obtain ⟨-, -, hreturn⟩ := bunBranches true 0
  obtain ⟨v, hv, hPC, -⟩ := hreturn u
  refine ⟨v, hv, ?_⟩
  calc v.PC = addressField (u.M.read 0) := hPC
    _ = s.PC := by rw [hM, hsaved, addressField_setWidth]

/-- Settles O54: each writes its own fields of the record. -/
theorem hostInputAndOutputReady : Obligations.HostInputAndOutputReady :=
  fun s b => ⟨⟨rfl, rfl, keepsRegisters_hostInput b s, rfl, rfl, rfl⟩,
    ⟨rfl, keepsRegisters_hostOutputReady s, rfl, rfl, rfl⟩⟩

end Sys2Proof.Proofs

/-! #### Construction and load (R250 to R253) -/

namespace Sys2Proof.Machine

/-- An image passes the checks of R253 exactly when its addresses fit the bank and its words fit 16 bits. -/
theorem loadCheck_eq_none_iff {program : List Nat} {data : List (Nat × Nat)} {origin : Nat} :
    loadCheck program data origin = none ↔
      origin ≤ 0xFFF ∧ origin + program.length ≤ Config.memWords ∧ (∀ p ∈ data, p.1 ≤ 0xFFF) ∧
        (∀ w ∈ program, w < 0x10000) ∧ ∀ p ∈ data, p.2 < 0x10000 := by
  simp [loadCheck, ite_eq_iff, not_or]

/-- A load fails with the reason its checks give, and with no other error (R253). -/
theorem load_eq_error_iff {program : List Nat} {data : List (Nat × Nat)} {origin : Nat} {e : EngineError} :
    load program data origin = .error e ↔
      ∃ reason, loadCheck program data origin = some reason ∧ e = .loadError reason := by
  unfold load
  cases loadCheck program data origin with
  | none => simp
  | some reason => simp [eq_comm]

/-- A load that fails leaves the engine as it was (R205). -/
theorem perform_load_error {program : List Nat} {data : List (Nat × Nat)} {origin : Nat} {e : EngineError}
    (h : load program data origin = .error e) (s : State) :
    (HostMove.load program data origin).perform s = .next s := by
  simp only [HostMove.perform, h]

/-- A word of memory after the program is placed: the program's word in its range, what stood there elsewhere. -/
theorem placeProgram_read {m : Memory} (hm : m.wf = true) {a : Nat} {words : List Nat}
    (h : a + words.length ≤ Config.memWords) (b : Nat) :
    (placeProgram m a words).read b =
      if a ≤ b ∧ b < a + words.length then BitVec.ofNat 16 (words.getD (b - a) 0) else m.read b := by
  induction words generalizing m a with
  | nil => rw [if_neg (by simp)]; rfl
  | cons w rest ih =>
    rw [List.length_cons] at h ⊢
    rw [placeProgram, ih (Memory.wf_set hm (by omega) _) (by omega), Memory.read_set hm]
    rcases lt_trichotomy b a with hlt | rfl | hgt
    · rw [if_neg (by omega), if_neg (by omega), if_neg (by omega)]
    · simp
    · have hindex : b - a = b - (a + 1) + 1 := by omega
      rw [hindex, List.getD_cons_succ, if_neg (by omega : b ≠ a)]
      exact if_congr (by omega) rfl rfl

/-- A program placed over zeros: its word at or after its origin, and 0 past its end and before its origin. -/
theorem placeProgram_nil_read {a : Nat} {words : List Nat} (h : a + words.length ≤ Config.memWords) (b : Nat) :
    (placeProgram [] a words).read b = BitVec.ofNat 16 (if a ≤ b then words.getD (b - a) 0 else 0) := by
  rw [placeProgram_read rfl h]
  split
  next hin => rw [if_pos hin.1]
  next hout =>
    split
    next hle => rw [List.getD_eq_default _ _ (by omega)]; rfl
    next => rfl

/-- A word of memory after the data is placed: the last pair for its address, else what stood there. -/
theorem placeData_read {m : Memory} (hm : m.wf = true) {data : List (Nat × Nat)}
    (h : ∀ p ∈ data, p.1 < Config.memWords) (b : Nat) :
    (placeData m data).read b =
      (data.reverse.find? (fun p => p.1 == b)).elim (m.read b) (fun p => BitVec.ofNat 16 p.2) := by
  induction data generalizing m with
  | nil => rfl
  | cons p rest ih =>
    obtain ⟨a, w⟩ := p
    rw [List.forall_mem_cons] at h
    obtain ⟨ha, hrest⟩ := h
    rw [placeData, ih (Memory.wf_set hm ha _) hrest, Memory.read_set hm, List.reverse_cons, List.find?_append]
    cases rest.reverse.find? (fun p => p.1 == b) with
    | some q => rfl
    | none =>
      rcases eq_or_ne a b with rfl | hne
      · simp
      · simp [hne, hne.symm]

/-- A bound on every word of a program bounds the word read at any index, the 0 past its end included. -/
theorem getD_zero_lt {words : List Nat} {bound : Nat} (hbound : 0 < bound) (h : ∀ w ∈ words, w < bound) (i : Nat) :
    words.getD i 0 < bound := by
  rw [List.getD_eq_getElem?_getD]
  cases hget : words[i]? with
  | some w => exact h w (List.mem_of_getElem? hget)
  | none => exact hbound

/-- The words of an image that passed the checks, as numbers: none is cut to 16 bits (R252, R253). -/
theorem imageMemory_read_toNat {program : List Nat} {data : List (Nat × Nat)} {origin : Nat}
    (h : loadCheck program data origin = none) (a : Nat) :
    ((imageMemory program data origin).read a).toNat =
      (data.reverse.find? (fun p => p.1 == a)).elim (if origin ≤ a then program.getD (a - origin) 0 else 0)
        (fun p => p.2) := by
  obtain ⟨-, hlength, haddress, hprogram, hdata⟩ := loadCheck_eq_none_iff.1 h
  rw [imageMemory, placeData_read (placeProgram_wf rfl hlength) fun p hp => Nat.lt_succ_of_le (haddress p hp)]
  cases hfind : data.reverse.find? (fun p => p.1 == a) with
  | some p =>
    have hmem : p ∈ data := List.mem_reverse.1 (List.mem_of_find?_eq_some hfind)
    exact (BitVec.toNat_ofNat _ _).trans (Nat.mod_eq_of_lt (hdata p hmem))
  | none =>
    have hword : (if origin ≤ a then program.getD (a - origin) 0 else 0) < 2 ^ 16 := by
      split
      next => exact getD_zero_lt (by decide) hprogram _
      next => decide
    rw [Option.elim_none, Option.elim_none, placeProgram_nil_read hlength, BitVec.toNat_ofNat,
      Nat.mod_eq_of_lt hword]

/-- Every register but PC and S has its value at construction after a load (R252). -/
theorem keepsRegisters_load {program : List Nat} {data : List (Nat × Nat)} {origin : Nat} {t : State}
    (h : load program data origin = .ok t) : Statements.keepsRegisters [.PC, .S] State.reset t := by
  obtain ⟨-, rfl⟩ := load_ok h
  intro r hr
  cases r with
  | PC | S => simp at hr
  | _ => rfl

/-- At construction every register and flag is 0 (R250). -/
@[simp] theorem RegName.value_reset (r : RegName) : r.value State.reset = 0 := by
  cases r <;> rfl

end Sys2Proof.Machine

namespace Sys2Proof.Proofs

open Sys2Proof.Machine Sys2Proof.Statements

/-- Settles O52: the load fails when its checks do not answer none, and each check is one of the four conditions. -/
theorem loadFailsExactlyOnBadImages : Obligations.LoadFailsExactlyOnBadImages := by
  intro program data origin s
  refine ⟨?_, fun e he => perform_load_error he s⟩
  calc (∃ reason, load program data origin = .error (.loadError reason))
      ↔ loadCheck program data origin ≠ none := by simp [load_eq_error_iff, Option.ne_none_iff_exists']
    _ ↔ _ := by
      rw [Ne, loadCheck_eq_none_iff]
      simp only [not_and_or, not_forall, not_le, not_lt, exists_prop, gt_iff_lt, ge_iff_le, Config.memWords]

/-- Settles O53: the frame of the load over the state at construction, and the words of its image. -/
theorem loadLeavesTheImage : Obligations.LoadLeavesTheImage := by
  intro program data origin t h
  obtain ⟨hcheck, ht⟩ := load_ok h
  have ⟨horigin, _⟩ := loadCheck_eq_none_iff.1 hcheck
  have hframe := keepsRegisters_load h
  subst ht
  refine ⟨(BitVec.toNat_ofNat _ _).trans (Nat.mod_eq_of_lt (by omega)), rfl, fun r hPC hS => ?_, rfl, rfl,
    imageMemory_wf hcheck, fun a _ => ?_⟩
  · rw [hframe r (by simp [hPC, hS]), RegName.value_reset]
  · rw [imageMemory_read_toNat hcheck]
    cases data.reverse.find? (fun p => p.1 == a) <;> rfl

/-- Settles O51: the registers one by one, and a memory that lists no word. -/
theorem constructionIsAllZero : Obligations.ConstructionIsAllZero :=
  ⟨RegName.value_reset, Memory.read_nil, rfl, rfl⟩

end Sys2Proof.Proofs
